-- ==== Sys2Proof/Word.lean ====
section
/-!
DEFINITION. The block's words and plain data types: bytes, command words, response words, the three symbols and the
thirty decoder states (00_scope.md R9, R10; 30_encoding.md R60, R66; 40_decoder_fsm.md R82).
-/

namespace Sys2Proof

/-- A byte of the ring buffer, or a byte the FSM emits (00_scope.md R10). -/
abbrev Byte := BitVec 8

/-- A command word `cw[11:0]` (30_encoding.md R60). -/
abbrev CommandWord := BitVec 12

/-- A response word `rw[10:0]` (30_encoding.md R66). -/
abbrev ResponseWord := BitVec 11

/-- The line alphabet: exactly Dot, Dash and Space (00_scope.md R9). -/
inductive Symbol where
  | dot
  | dash
  | space
  deriving DecidableEq, Repr

/-- The thirty values of `st` (40_decoder_fsm.md R82): Start, the 26 letter nodes, and the three nodes whose prefix is no
letter's code. They stand in the order of their codes 0 to 29 (30_encoding.md R64). -/
inductive DecoderState where
  | start
  | e | t
  | i | a | n | m
  | s | u | r | w | d | k | g | o
  | h | v | f | dig2 | l | p | j | b | x | c | y | z | q | dig8 | dig90
  deriving DecidableEq, Repr

end Sys2Proof
end

