-- ==== Sys2Proof/Config.lean ====
section
/-!
DEFINITION. What an implementation fixes and the spec leaves open: the parameter `RB_LOG2_N` and the bytes of slots that
nothing has written. Each is a constant without a body, so no proof can rest on its value.
-/

namespace Sys2Proof

/-- One less than the parameter `RB_LOG2_N` of the block that State.reset stands for: any natural number
(00_scope.md R5). DESIGN CHOICE, log 1; safe. -/
opaque Config.rbLog2NPred : Nat

/-- The parameter `RB_LOG2_N`, written `K`; at least 1 and otherwise unknown (00_scope.md R5). -/
def Config.rbLog2N : Nat := Config.rbLog2NPred + 1

/-- FREE VALUE. The byte a slot of `mem` holds when nothing has written it since the last reset, given how many reset
steps there have been and the slot's index (10_state.md R32, 93_implementation_defined.md U6). DESIGN CHOICE, log 6; safe. -/
opaque Config.unspecifiedByte : Nat → Nat → Byte

end Sys2Proof
end

