-- ==== Sys2Proof/Syntax.lean ====
section
/-!
DEFINITION. The eleven commands (30_encoding.md R62) and the lines of an assembler listing (30_encoding.md R69).
-/

namespace Sys2Proof

/-- The commands of the block, one constructor for each row of the opcode table (30_encoding.md R62). -/
inductive Instr where
  /-- STEP.DOT (40_decoder_fsm.md R115). -/
  | stepDot
  /-- STEP.DASH (40_decoder_fsm.md R116). -/
  | stepDash
  /-- STEP.SPACE (40_decoder_fsm.md R117). -/
  | stepSpace
  /-- FLUSH (40_decoder_fsm.md R118). -/
  | flush
  /-- PUSH b (41_ring_buffer.md R131); every byte is a legal operand (30_encoding.md R65). -/
  | push (b : Byte)
  /-- POP (41_ring_buffer.md R132). -/
  | pop
  /-- ISEMPTY (41_ring_buffer.md R133). -/
  | isempty
  /-- CLEAR (41_ring_buffer.md R134). -/
  | clear
  /-- CSENTER (42_arbitration.md R151). -/
  | csenter
  /-- CSEXIT (42_arbitration.md R152). -/
  | csexit
  /-- IRET (42_arbitration.md R153). -/
  | iret
  deriving DecidableEq, Repr

/-- One line of an assembler listing that stands for commands: a command, or a pseudo-instruction (30_encoding.md R69). -/
inductive AsmLine where
  | command (i : Instr)
  | gpush (b : Byte)
  | gpop
  | gisempty
  | gclear
  /-- `morse "<string of . and ->"`: the string as a list of symbols, which must hold no Space. -/
  | morse (marks : List Symbol)
  deriving DecidableEq, Repr

/-- One item of a listing: a line of commands, or a directive saying what the environment does there (30_encoding.md R69). -/
inductive ListingItem where
  | asm (line : AsmLine)
  /-- `@irq`: the environment raises `irq`. -/
  | irq
  /-- `@grant`: a grant step. -/
  | grant
  /-- `@drop`: the environment lowers `irq`. -/
  | drop
  deriving DecidableEq, Repr

end Sys2Proof
end

