-- ==== Sys2Proof/WellFormed.lean ====
section
/-!
DEFINITION. The checks on syntax: which 12-bit words are commands (30_encoding.md R67), which command operands and which
listing lines are legal (30_encoding.md R61, R65, R69).
-/

namespace Sys2Proof

/-- Every command is well formed: the only operand, PUSH's, is a byte, and every byte is legal (30_encoding.md R65). -/
def Instr.wf : Instr → Bool
  | .stepDot => true
  | .stepDash => true
  | .stepSpace => true
  | .flush => true
  | .push b => b.toNat < 256
  | .pop => true
  | .isempty => true
  | .clear => true
  | .csenter => true
  | .csexit => true
  | .iret => true

/-- A word that selects a command, by the three clauses of 30_encoding.md R67, told from the word's number alone:
(a) its opcode is one of the nine, (b) a command without operand has the operand field 0, (c) the symbol is below 3. -/
def legalWord (w : CommandWord) : Bool :=
  let opc := w.toNat / 256
  let arg := w.toNat % 256
  let clauseA := [0x0, 0x3, 0xB, 0xC, 0xD, 0xE, 0xF].contains opc
  let clauseB := [0x2, 0x5, 0x6, 0x7, 0x8, 0x9, 0xA].contains opc && arg != 0
  let clauseC := opc == 0x1 && decide (3 ≤ arg)
  !(clauseA || clauseB || clauseC)

/-- A mark is a Dot or a Dash; `morse` keys marks only (30_encoding.md R69). -/
def Symbol.isMark : Symbol → Bool
  | .dot => true
  | .dash => true
  | .space => false

/-- A listing line is well formed when its command is and its `morse` string holds only `.` and `-` (30_encoding.md R69). -/
def AsmLine.wf : AsmLine → Bool
  | .command i => i.wf
  | .gpush _ => true
  | .gpop => true
  | .gisempty => true
  | .gclear => true
  | .morse marks => marks.all Symbol.isMark

end Sys2Proof
end

