-- ==== Sys2Proof/Decode.lean ====
section
/-!
DEFINITION. The decoder, total on all 4096 command words and rejecting by name, the opcode rows, and the encoder
(30_encoding.md R60 to R68). Decoding reads the 12 bits and nothing else (R68).
-/

namespace Sys2Proof

/-- Why a word selects no command: the clauses of 30_encoding.md R67. -/
inductive IllegalWord where
  /-- Clause (a): the opcode names no command. -/
  | noSuchOpcode
  /-- Clause (b): a command without operand has a non-zero operand field. -/
  | operandNotZero
  /-- Clause (c): STEP with no symbol's code in its operand field. -/
  | noSuchSymbol
  deriving DecidableEq, Repr

/-- `cw[11:8]` (30_encoding.md R60). -/
def opcOf (w : CommandWord) : BitVec 4 := w.extractLsb' 8 4

/-- `cw[7:0]` (30_encoding.md R60). -/
def argOf (w : CommandWord) : Byte := w.extractLsb' 0 8

/-- `sym = arg[1:0]` (30_encoding.md R61, R65). -/
def symOf (arg : Byte) : BitVec 2 := arg.extractLsb' 0 2

/-- `arg[7:2]`, which STEP needs to be 0 (30_encoding.md R61). -/
def symPadOf (arg : Byte) : BitVec 6 := arg.extractLsb' 2 6

/-- The codes of the three symbols (30_encoding.md R63). -/
def symbolCode : Symbol → BitVec 2
  | .dot => 0
  | .dash => 1
  | .space => 2

/-- The symbol of a code; code 3 is none (30_encoding.md R63). -/
def symbolOfCode (c : BitVec 2) : Option Symbol :=
  if c = 0 then some .dot else if c = 1 then some .dash else if c = 2 then some .space else none

/-- The STEP command that feeds a symbol (30_encoding.md R62). -/
def stepOf : Symbol → Instr
  | .dot => .stepDot
  | .dash => .stepDash
  | .space => .stepSpace

/-- Format N: the operand field must be 0 (30_encoding.md R61, R67 clause b). -/
def decodeFormatN (i : Instr) (arg : Byte) : Except IllegalWord Instr :=
  if arg = 0 then .ok i else .error .operandNotZero

/-- Format S: `arg[7:2]` must be 0 and `arg[1:0]` a symbol's code (30_encoding.md R61, R67 clause c). -/
def decodeFormatS (arg : Byte) : Except IllegalWord Instr :=
  if symPadOf arg = 0 then
    match symbolOfCode (symOf arg) with
    | some y => .ok (stepOf y)
    | none => .error .noSuchSymbol
  else .error .noSuchSymbol

/-- The command a word selects, or why it selects none (30_encoding.md R62, R67, R68). -/
def decode (w : CommandWord) : Except IllegalWord Instr :=
  let opc := opcOf w
  let arg := argOf w
  if opc = 0x1#4 then decodeFormatS arg
  else if opc = 0x2#4 then decodeFormatN .flush arg
  else if opc = 0x4#4 then .ok (.push arg)
  else if opc = 0x5#4 then decodeFormatN .pop arg
  else if opc = 0x6#4 then decodeFormatN .isempty arg
  else if opc = 0x7#4 then decodeFormatN .clear arg
  else if opc = 0x8#4 then decodeFormatN .csenter arg
  else if opc = 0x9#4 then decodeFormatN .csexit arg
  else if opc = 0xA#4 then decodeFormatN .iret arg
  else .error .noSuchOpcode

/-- A command word from its two fields (30_encoding.md R60). -/
def wordOf (opc : BitVec 4) (arg : Byte) : CommandWord := opc ++ arg

/-- Format S's operand field: `arg[7:2] = 0`, `arg[1:0] = sym` (30_encoding.md R61). -/
def symArg (y : Symbol) : Byte := 0#6 ++ symbolCode y

/-- The word of a command, from the fields of the opcode map (30_encoding.md R62). -/
def encode : Instr → CommandWord
  | .stepDot => wordOf 0x1 (symArg .dot)
  | .stepDash => wordOf 0x1 (symArg .dash)
  | .stepSpace => wordOf 0x1 (symArg .space)
  | .flush => wordOf 0x2 0
  | .push b => wordOf 0x4 b
  | .pop => wordOf 0x5 0
  | .isempty => wordOf 0x6 0
  | .clear => wordOf 0x7 0
  | .csenter => wordOf 0x8 0
  | .csexit => wordOf 0x9 0
  | .iret => wordOf 0xA 0

/-- One row of the opcode map: its mnemonic, its `match` (here `pattern`) and its `mask` (30_encoding.md R62). -/
structure OpcodeRow where
  mnemonic : String
  pattern : CommandWord
  mask : CommandWord
  deriving DecidableEq, Repr

/-- `w` selects a row iff `(w & mask) == match` (30_encoding.md R62). -/
def OpcodeRow.selects (r : OpcodeRow) (w : CommandWord) : Bool := (w &&& r.mask) == r.pattern

/-- The row of each command, copied from the opcode map (30_encoding.md R62). -/
def rowOf : Instr → OpcodeRow
  | .stepDot => ⟨"STEP.DOT", 0x100, 0xFFF⟩
  | .stepDash => ⟨"STEP.DASH", 0x101, 0xFFF⟩
  | .stepSpace => ⟨"STEP.SPACE", 0x102, 0xFFF⟩
  | .flush => ⟨"FLUSH", 0x200, 0xFFF⟩
  | .push _ => ⟨"PUSH", 0x400, 0xF00⟩
  | .pop => ⟨"POP", 0x500, 0xFFF⟩
  | .isempty => ⟨"ISEMPTY", 0x600, 0xFFF⟩
  | .clear => ⟨"CLEAR", 0x700, 0xFFF⟩
  | .csenter => ⟨"CSENTER", 0x800, 0xFFF⟩
  | .csexit => ⟨"CSEXIT", 0x900, 0xFFF⟩
  | .iret => ⟨"IRET", 0xA00, 0xFFF⟩

/-- The eleven rows of the opcode map, in its order (30_encoding.md R62). -/
def opcodeRows : List OpcodeRow :=
  [rowOf .stepDot, rowOf .stepDash, rowOf .stepSpace, rowOf .flush, rowOf (.push 0), rowOf .pop, rowOf .isempty,
   rowOf .clear, rowOf .csenter, rowOf .csexit, rowOf .iret]

/-- The command word of an instruction given as a number with bit 0 the least significant: the low `nbits` bits of `w`, which
must fit the 12 bits a command has (30_encoding.md R60, R68). DESIGN CHOICE, log 17; safe. -/
def tableWord (nbits w : Nat) : Option CommandWord :=
  let v := w % 2 ^ nbits
  if v < 2 ^ 12 then some (BitVec.ofNat 12 v) else none

/-- The command the decoder reads from an opcode-table word; none where it refuses. -/
def decodeTableWord (nbits w : Nat) : Option Instr :=
  match tableWord nbits w with
  | none => none
  | some v =>
    match decode v with
    | .ok i => some i
    | .error _ => none

end Sys2Proof
end

