-- ==== Sys2Proof/Machine/State.lean ====
section
/-!
DEFINITION. The block's state as plain data, its fault and refusal reasons, and the state after reset
(10_state.md R20 to R34; 30_encoding.md R66, R71).
-/

namespace Sys2Proof.Machine

/-- Why a step stops with a fault. -/
inductive Fault where
  /-- Raised by PUSH and POP when the cursor they index `mem` with names no slot of 0 to N-1. No run raises it, because a
  cursor is a K-bit value (20_memory.md R42); only a State written by hand can. Safe: the model stops where the block has no
  such state. Log 11. -/
  | noSuchSlot
  deriving DecidableEq, Repr

/-- Why a step is refused. GUARD and ILLEGAL are responses, not refusals of this kind (log 4, log 5). -/
inductive Refusal where
  /-- Answered by `exec` for a command that has no meaning yet. Safe. No arm of `exec` answers it. -/
  | notModelled (mnemonic : String)
  deriving DecidableEq, Repr

/-- The response of a command step (30_encoding.md R66): the five statuses, with a byte only where there is a datum. -/
inductive Response where
  | ok (data : Byte)
  | full
  | empty
  | guard
  | illegal
  deriving DecidableEq, Repr

/-- What the ports `rw` and `iack` show of the latest step (30_encoding.md R66, R71). -/
inductive Output where
  /-- No response word and `iack` 0: after a reset step, and after a step in which nothing happened. Log 13. -/
  | quiet
  /-- A command step: its response word stands on `rw`. -/
  | response (r : Response)
  /-- A grant step: `iack` is 1 and there is no response word (60_exceptions.md R165). -/
  | grantAck
  deriving DecidableEq, Repr

/-- The levels of the three one-bit input ports during one step (30_encoding.md R71). -/
structure Lines where
  rst : Bool
  irq : Bool
  /-- `cmd_valid`: the executing context presents its next word on `cw`. -/
  cmdValid : Bool
  deriving DecidableEq, Repr

/-- The ring buffer's byte array: pairs of a slot and its byte, slots strictly rising. -/
abbrev Memory := List Host.Cell

/-- The complete state of the block: exactly the six elements of 10_state.md R20. -/
structure Block where
  /-- The DecoderState (10_state.md R22). -/
  st : DecoderState
  /-- The written slots of the ring storage (10_state.md R23). -/
  mem : Memory
  /-- The write cursor, a K-bit value (10_state.md R24). Log 11. -/
  wr : Nat
  /-- The read cursor, a K-bit value (10_state.md R24). Log 11. -/
  rd : Nat
  /-- The interrupt-suppression bit (10_state.md R26). -/
  mask : Bool
  /-- The bit that says a handler executes (10_state.md R27). -/
  inh : Bool
  deriving DecidableEq, Repr

/-- What a step is a function of: the block's six elements (`State.toBlock`), and beside them what is no state of the block, namely the
parameter K (00_scope.md R5), the ports (30_encoding.md R71) and the model's own index of free bytes. Log 19. -/
structure State extends Block where
  /-- The parameter K of this block, which no step writes (00_scope.md R5). Log 1. -/
  k : Nat
  /-- The MODEL's own field: the number of reset steps so far, index of the free bytes of unwritten slots. Log 7. -/
  resetCount : Nat
  /-- The levels the environment drives in the coming steps, the next step's first; none left means all low. Log 3. -/
  lines : List Lines
  /-- The words the foreground has yet to present, the next first (10_state.md R21). Log 3. -/
  fg : List CommandWord
  /-- The words the handler context has yet to present, the next first (10_state.md R21). Log 3. -/
  ih : List CommandWord
  /-- What `rw` and `iack` show of the latest step. Log 2. -/
  out : Output
  deriving DecidableEq, Repr

/-- The block of parameter `k` right after reset (10_state.md R32), with nothing presented by the environment. -/
def State.resetWith (k : Nat) : State where
  st := .start
  mem := []
  wr := 0
  rd := 0
  mask := false
  inh := false
  k := k
  resetCount := 0
  lines := []
  fg := []
  ih := []
  out := .quiet

/-- The machine right after reset (10_state.md R32), for the unknown K of Config (log 1). -/
def State.reset : State := State.resetWith Config.rbLog2N

end Sys2Proof.Machine
end

