-- ==== Sys2Proof/Machine/Operands.lean ====
section
/-!
DEFINITION. Operand forms and codes: cursor arithmetic and the one addressing mode (41_ring_buffer.md R135, R136), the
state codes (30_encoding.md R64) and the response word's bits (30_encoding.md R66).
-/

namespace Sys2Proof.Machine

/-- The slot count `N = 2^K` (00_scope.md R5). -/
def slots (s : State) : Nat := 2 ^ s.k

/-- `(c + 1) mod N`: the advance of a cursor (41_ring_buffer.md R135). -/
def nextCursor (s : State) (c : Nat) : Nat := (c + 1) % slots s

/-- The occupancy `(wr - rd) mod N` (10_state.md R25). -/
def occupancy (s : State) : Nat := (s.wr + slots s - s.rd) % slots s

/-- PUSH's effective slot: the write cursor before it advances (41_ring_buffer.md R136). -/
def storeSlot (s : State) : Nat := s.wr

/-- POP's effective slot: the read cursor before it advances (41_ring_buffer.md R136). -/
def loadSlot (s : State) : Nat := s.rd

/-- The 5-bit code of a decoder state (30_encoding.md R64). -/
def stateCode : DecoderState → BitVec 5
  | .start => 0
  | .e => 1
  | .t => 2
  | .i => 3
  | .a => 4
  | .n => 5
  | .m => 6
  | .s => 7
  | .u => 8
  | .r => 9
  | .w => 10
  | .d => 11
  | .k => 12
  | .g => 13
  | .o => 14
  | .h => 15
  | .v => 16
  | .f => 17
  | .dig2 => 18
  | .l => 19
  | .p => 20
  | .j => 21
  | .b => 22
  | .x => 23
  | .c => 24
  | .y => 25
  | .z => 26
  | .q => 27
  | .dig8 => 28
  | .dig90 => 29

/-- `rw[10:8]` (30_encoding.md R66). -/
def statusCode : Response → BitVec 3
  | .ok _ => 0
  | .full => 1
  | .empty => 2
  | .guard => 3
  | .illegal => 4

/-- `rw[7:0]`: the datum, `0x00` on every failure (30_encoding.md R66). -/
def dataByte : Response → Byte
  | .ok d => d
  | .full => 0
  | .empty => 0
  | .guard => 0
  | .illegal => 0

/-- The response word: status in bits 10..8, data in bits 7..0 (30_encoding.md R66). -/
def responseWord (r : Response) : ResponseWord := statusCode r ++ dataByte r

/-- ISEMPTY's datum: `0x01` for true, `0x00` for false (41_ring_buffer.md R133). -/
def boolByte (b : Bool) : Byte := if b then 0x01 else 0x00

end Sys2Proof.Machine
end

