-- ==== Sys2Proof/Machine/Flags.lean ====
section
/-!
DEFINITION. The two conditions the commands compute from the cursors; the block stores no flags (10_state.md R29).
-/

namespace Sys2Proof.Machine

/-- `empty := (wr == rd)` (10_state.md R29). -/
def isEmpty (s : State) : Bool := s.wr == s.rd

/-- `full := ((wr + 1) mod N == rd)` (10_state.md R29). -/
def isFull (s : State) : Bool := nextCursor s s.wr == s.rd

end Sys2Proof.Machine
end

