-- ==== Sys2Proof/Machine/Ops.lean ====
section
/-!
DEFINITION. The named operations over memory and registers that the meanings and the step are written with: the ring
storage, the response, the guard, the interrupt grant and the return from it, the reset, and the ports.
-/

namespace Sys2Proof.Machine

/-! ### The ring storage -/

/-- The byte the memory lists for a slot, none where nothing has written the slot since the last reset. -/
def Memory.lookup : Memory → Nat → Option Byte
  | [], _ => none
  | (a, v) :: m, i => if a = i then some v else Memory.lookup m i

/-- The memory with one slot's byte set, the slots kept strictly rising. -/
def Memory.store : Memory → Nat → Byte → Memory
  | [], i, v => [(i, v)]
  | (a, w) :: m, i, v =>
    if i < a then (i, v) :: (a, w) :: m
    else if i = a then (i, v) :: m
    else (a, w) :: Memory.store m i v

/-- The canonical form: slots strictly rising. No entry can equal what an unlisted slot holds, for an unlisted slot holds no
byte of its own (log 6). -/
abbrev Memory.wf (m : Memory) : Prop := (m.map Prod.fst).Pairwise (· < ·)

/-- The byte in a slot: the listed byte, or the free value of an unwritten slot (10_state.md R32). Log 6. -/
def slotByte (s : State) (i : Nat) : Byte :=
  (Memory.lookup s.mem i).getD (Config.unspecifiedByte s.resetCount i)

/-- `MemRead(i, 1)` for `0 <= i < N` (00_scope.md R8, 20_memory.md R40); a slot that does not exist faults. -/
def memRead (s : State) (i : Nat) : Except Fault Byte :=
  if i < slots s then .ok (slotByte s i) else .error .noSuchSlot

/-- `MemWrite(i, 1, v)` for `0 <= i < N` (00_scope.md R8, 20_memory.md R40); a slot that does not exist faults. -/
def memWrite (s : State) (i : Nat) (v : Byte) : Except Fault State :=
  if i < slots s then .ok { s with mem := Memory.store s.mem i v } else .error .noSuchSlot

/-! ### Registers and the response -/

/-- `st <- new`. -/
def setSt (s : State) (new : DecoderState) : State := { s with st := new }

/-- `wr <- c`. -/
def setWr (s : State) (c : Nat) : State := { s with wr := c }

/-- `rd <- c`. -/
def setRd (s : State) (c : Nat) : State := { s with rd := c }

/-- `mask <- b`. -/
def setMask (s : State) (b : Bool) : State := { s with mask := b }

/-- `respond(status, data)`: the response word of the command step (00_scope.md R8, 30_encoding.md R66). -/
def respond (s : State) (r : Response) : State := { s with out := .response r }

/-! ### The guard -/

/-- The rows of the guard table of 42_arbitration.md R150. -/
inductive CommandClass where
  | fsm
  | ring
  | csenter
  | csexit
  | iret
  deriving DecidableEq, Repr

/-- Whether a command of this class is admitted with these values of `inh` and `mask`: the guard table of 42_arbitration.md
R150. Its conditions are those of 40_decoder_fsm.md section 3, 41_ring_buffer.md R130 and 42_arbitration.md R151 to R153,
which also settle the unreachable (1, 1). DEDUCED, log 8; safe. -/
def admits (c : CommandClass) (inh mask : Bool) : Bool :=
  match c with
  | .fsm => !inh
  | .ring => inh || mask
  | .csenter => !inh && !mask
  | .csexit => !inh && mask
  | .iret => inh

/-- A command behind the guard: its own rule where it is admitted, else status GUARD and no state change
(42_arbitration.md R150, 60_exceptions.md R161). Log 4. -/
def guarded (c : CommandClass) (s : State) (body : Host.Outcome State Fault Refusal) :
    Host.Outcome State Fault Refusal :=
  if admits c s.inh s.mask then body else .next (respond s .guard)

/-! ### The interrupt grant, the return from it, and reset -/

/-- The grant: `inh <- 1` and `iack` is 1; nothing is saved and there is no response word (60_exceptions.md R165). -/
def takeGrant (s : State) : State := { s with inh := true, out := .grantAck }

/-- The return from a handler: `inh <- 0`; nothing is restored (42_arbitration.md R153). -/
def returnFromHandler (s : State) : State := { s with inh := false }

/-- The reset event: every state element at its reset value, `mem` unspecified again (70_reset_and_hazards.md R180,
10_state.md R32). No command is executed and no grant is made. Log 6, log 13. -/
def performReset (s : State) : State :=
  { s with st := .start, mem := [], wr := 0, rd := 0, mask := false, inh := false,
           resetCount := s.resetCount + 1, out := .quiet }

/-- A step in which nothing happens: no response and no `iack` (60_exceptions.md R167 clause 4). Log 13. -/
def idle (s : State) : State := { s with out := .quiet }

/-! ### The ports -/

/-- The levels of `rst`, `irq` and `cmd_valid` during the next step; all low where the environment drives nothing. -/
def currentLines (s : State) : Lines :=
  match s.lines with
  | [] => { rst := false, irq := false, cmdValid := false }
  | l :: _ => l

/-- The words of the executing context, foreground or handler by `inh` (00_scope.md R6, 10_state.md R21). -/
def contextWords (s : State) : List CommandWord := if s.inh then s.ih else s.fg

/-- What the next step is. -/
inductive Choice where
  | reset
  | grant
  | command (w : CommandWord)
  | idle
  deriving DecidableEq, Repr

/-- The command the executing context presents: `cmd_valid` is 1 and it has a word for `cw` (30_encoding.md R71). -/
def presented (s : State) : Option CommandWord :=
  if (currentLines s).cmdValid then (contextWords s).head? else none

/-- The choice of the next step: reset, else a grant if `irq == 1` and `mask == 0` and `inh == 0`, else the command presented,
else nothing (60_exceptions.md R167). -/
def choose (s : State) : Choice :=
  if (currentLines s).rst then .reset
  else if (currentLines s).irq && !s.mask && !s.inh then .grant
  else match presented s with
    | some w => .command w
    | none => .idle

/-- The step is past: the environment drives the next step's levels. -/
def passLines (s : State) : State := { s with lines := s.lines.tail }

/-- The word presented is accepted: its context presents its next one from now on (10_state.md R21). A grant or a reset accepts
no word, so the word waits (60_exceptions.md R167 clause 2). Log 14. -/
def acceptWord (s : State) : State :=
  if s.inh then { s with ih := s.ih.tail } else { s with fg := s.fg.tail }

/-- The state in which an accepted command runs. -/
def accepted (s : State) : State := acceptWord (passLines s)

/-- An illegal word is accepted as a step that changes no state and answers ILLEGAL (30_encoding.md R67,
60_exceptions.md R162). Log 5. -/
def refuseIllegal (s : State) : State := respond s .illegal

/-- The output ports (30_encoding.md R71, 10_state.md R30). -/
structure Pins where
  rw : Option ResponseWord
  iack : BitVec 1
  stQ : BitVec 5
  maskQ : BitVec 1
  inhQ : BitVec 1
  deriving DecidableEq, Repr

/-- The output ports as they stand after the latest step (10_state.md R30, 30_encoding.md R66, R71). -/
def pins (s : State) : Pins where
  rw := match s.out with
    | .quiet => none
    | .response r => some (responseWord r)
    | .grantAck => none
  iack := match s.out with
    | .quiet => 0
    | .response _ => 0
    | .grantAck => 1
  stQ := stateCode s.st
  maskQ := BitVec.ofBool s.mask
  inhQ := BitVec.ofBool s.inh

/-- Present one opcode-table word as the very next step: `cmd_valid` high, `rst` and `irq` low, the word first in the executing
context's list. Log 17. -/
def presentWord (s : State) (nbits w : Nat) : State :=
  let word := BitVec.ofNat 12 (w % 2 ^ nbits)
  let s' : State := { s with lines := { rst := false, irq := false, cmdValid := true } :: s.lines }
  if s.inh then { s' with ih := word :: s.ih } else { s' with fg := word :: s.fg }

end Sys2Proof.Machine
end

