-- ==== Sys2Proof/Machine/Arbitration.lean ====
section
/-!
DEFINITION. The arbitration commands' meanings: CSENTER, CSEXIT, IRET (42_arbitration.md R151 to R153).
-/

namespace Sys2Proof.Machine

/-- CSENTER: `mask <- 1` (42_arbitration.md R151). -/
def execCsenter (s : State) : Host.Outcome State Fault Refusal :=
  guarded .csenter s (.next (respond (setMask s true) (.ok 0x00)))

/-- CSEXIT: `mask <- 0` (42_arbitration.md R152). -/
def execCsexit (s : State) : Host.Outcome State Fault Refusal :=
  guarded .csexit s (.next (respond (setMask s false) (.ok 0x00)))

/-- IRET: the return from the handler (42_arbitration.md R153, 60_exceptions.md R169). -/
def execIret (s : State) : Host.Outcome State Fault Refusal :=
  guarded .iret s (.next (respond (returnFromHandler s) (.ok 0x00)))

end Sys2Proof.Machine
end

