-- ==== Sys2Proof/Machine/Fsm.lean ====
section
/-!
DEFINITION. The decoder FSM: its transition table T (40_decoder_fsm.md R80 to R114) and the meanings of STEP.DOT, STEP.DASH,
STEP.SPACE and FLUSH (R115 to R118).
-/

namespace Sys2Proof.Machine

/-- The table T, entry by entry, over the two parameters the spec names: the new states `inv` of the 21 Dot and Dash entries that
match no character (`INVALID_NEXT`) and the bytes `dig` of the three Space entries at a digit's prefix
(`DIGPREFIX_SPACE_BYTE`). One arm for each of the 90 entries (40_decoder_fsm.md R84 to R113). -/
def transitionWith (inv : DecoderState → Symbol → DecoderState) (dig : DecoderState → Byte)
    (old : DecoderState) (y : Symbol) : DecoderState × Byte :=
  match old, y with
  -- R84
  | .start, .dot => (.e, 0x00)
  | .start, .dash => (.t, 0x00)
  | .start, .space => (.start, 0x00)
  -- R85
  | .e, .dot => (.i, 0x00)
  | .e, .dash => (.a, 0x00)
  | .e, .space => (.start, 0x45)
  -- R86
  | .t, .dot => (.n, 0x00)
  | .t, .dash => (.m, 0x00)
  | .t, .space => (.start, 0x54)
  -- R87
  | .i, .dot => (.s, 0x00)
  | .i, .dash => (.u, 0x00)
  | .i, .space => (.start, 0x49)
  -- R88
  | .a, .dot => (.r, 0x00)
  | .a, .dash => (.w, 0x00)
  | .a, .space => (.start, 0x41)
  -- R89
  | .n, .dot => (.d, 0x00)
  | .n, .dash => (.k, 0x00)
  | .n, .space => (.start, 0x4E)
  -- R90
  | .m, .dot => (.g, 0x00)
  | .m, .dash => (.o, 0x00)
  | .m, .space => (.start, 0x4D)
  -- R91
  | .s, .dot => (.h, 0x00)
  | .s, .dash => (.v, 0x00)
  | .s, .space => (.start, 0x53)
  -- R92
  | .u, .dot => (.f, 0x00)
  | .u, .dash => (.dig2, 0x00)
  | .u, .space => (.start, 0x55)
  -- R93
  | .r, .dot => (.l, 0x00)
  | .r, .dash => (inv .r .dash, 0x00)
  | .r, .space => (.start, 0x52)
  -- R94
  | .w, .dot => (.p, 0x00)
  | .w, .dash => (.j, 0x00)
  | .w, .space => (.start, 0x57)
  -- R95
  | .d, .dot => (.b, 0x00)
  | .d, .dash => (.x, 0x00)
  | .d, .space => (.start, 0x44)
  -- R96
  | .k, .dot => (.c, 0x00)
  | .k, .dash => (.y, 0x00)
  | .k, .space => (.start, 0x4B)
  -- R97
  | .g, .dot => (.z, 0x00)
  | .g, .dash => (.q, 0x00)
  | .g, .space => (.start, 0x47)
  -- R98
  | .o, .dot => (.dig8, 0x00)
  | .o, .dash => (.dig90, 0x00)
  | .o, .space => (.start, 0x4F)
  -- R99
  | .h, .dot => (.start, 0x35)
  | .h, .dash => (.start, 0x34)
  | .h, .space => (.start, 0x48)
  -- R100
  | .v, .dot => (inv .v .dot, 0x00)
  | .v, .dash => (.start, 0x33)
  | .v, .space => (.start, 0x56)
  -- R101
  | .f, .dot => (inv .f .dot, 0x00)
  | .f, .dash => (inv .f .dash, 0x00)
  | .f, .space => (.start, 0x46)
  -- R102
  | .dig2, .dot => (inv .dig2 .dot, 0x00)
  | .dig2, .dash => (.start, 0x32)
  | .dig2, .space => (.start, dig .dig2)
  -- R103
  | .l, .dot => (inv .l .dot, 0x00)
  | .l, .dash => (inv .l .dash, 0x00)
  | .l, .space => (.start, 0x4C)
  -- R104
  | .p, .dot => (inv .p .dot, 0x00)
  | .p, .dash => (inv .p .dash, 0x00)
  | .p, .space => (.start, 0x50)
  -- R105
  | .j, .dot => (inv .j .dot, 0x00)
  | .j, .dash => (.start, 0x31)
  | .j, .space => (.start, 0x4A)
  -- R106
  | .b, .dot => (.start, 0x36)
  | .b, .dash => (inv .b .dash, 0x00)
  | .b, .space => (.start, 0x42)
  -- R107
  | .x, .dot => (inv .x .dot, 0x00)
  | .x, .dash => (inv .x .dash, 0x00)
  | .x, .space => (.start, 0x58)
  -- R108
  | .c, .dot => (inv .c .dot, 0x00)
  | .c, .dash => (inv .c .dash, 0x00)
  | .c, .space => (.start, 0x43)
  -- R109
  | .y, .dot => (inv .y .dot, 0x00)
  | .y, .dash => (inv .y .dash, 0x00)
  | .y, .space => (.start, 0x59)
  -- R110
  | .z, .dot => (.start, 0x37)
  | .z, .dash => (inv .z .dash, 0x00)
  | .z, .space => (.start, 0x5A)
  -- R111
  | .q, .dot => (inv .q .dot, 0x00)
  | .q, .dash => (inv .q .dash, 0x00)
  | .q, .space => (.start, 0x51)
  -- R112
  | .dig8, .dot => (.start, 0x38)
  | .dig8, .dash => (inv .dig8 .dash, 0x00)
  | .dig8, .space => (.start, dig .dig8)
  -- R113
  | .dig90, .dot => (.start, 0x39)
  | .dig90, .dash => (.start, 0x30)
  | .dig90, .space => (.start, dig .dig90)

/-- `INVALID_NEXT`: Start at each of the 21 pairs (40_decoder_fsm.md R83 clause d, R114; decision D7 of the spec). Log 9;
unsafe. -/
def invalidNext (_ : DecoderState) (_ : Symbol) : DecoderState := .start

/-- `DIGPREFIX_SPACE_BYTE`: `0x00` at Dig2, Dig8 and Dig90 (40_decoder_fsm.md R83 clause f, R114; decision D8 of the spec).
Log 10; unsafe. -/
def digPrefixSpaceByte (_ : DecoderState) : Byte := 0x00

/-- The block's transition function T (40_decoder_fsm.md R80), as R84 to R113 state it. -/
def transition (old : DecoderState) (y : Symbol) : DecoderState × Byte :=
  transitionWith invalidNext digPrefixSpaceByte old y

/-- `(s2, e) = T(st, y); st <- s2; respond(OK, e)` (40_decoder_fsm.md R115 to R117). -/
def feedSymbol (s : State) (y : Symbol) : State :=
  respond (setSt s (transition s.st y).1) (.ok (transition s.st y).2)

/-- STEP.DOT (40_decoder_fsm.md R115). -/
def execStepDot (s : State) : Host.Outcome State Fault Refusal :=
  guarded .fsm s (.next (feedSymbol s .dot))

/-- STEP.DASH (40_decoder_fsm.md R116). -/
def execStepDash (s : State) : Host.Outcome State Fault Refusal :=
  guarded .fsm s (.next (feedSymbol s .dash))

/-- STEP.SPACE (40_decoder_fsm.md R117). -/
def execStepSpace (s : State) : Host.Outcome State Fault Refusal :=
  guarded .fsm s (.next (feedSymbol s .space))

/-- FLUSH: `st <- Start; respond(OK, 0x00)` (40_decoder_fsm.md R118). -/
def execFlush (s : State) : Host.Outcome State Fault Refusal :=
  guarded .fsm s (.next (respond (setSt s .start) (.ok 0x00)))

end Sys2Proof.Machine
end

