-- ==== Sys2Proof/Machine/RingBuffer.lean ====
section
/-!
DEFINITION. The ring buffer's meanings: PUSH, POP, ISEMPTY, CLEAR (41_ring_buffer.md R130 to R142).
-/

namespace Sys2Proof.Machine

/-- PUSH's own rule: FULL and no change when full, else store at `wr` and advance it (41_ring_buffer.md R131). -/
def pushByte (s : State) (b : Byte) : Host.Outcome State Fault Refusal :=
  if isFull s then .next (respond s .full)
  else match memWrite s (storeSlot s) b with
    | .ok t => .next (respond (setWr t (nextCursor s s.wr)) (.ok 0x00))
    | .error f => .fault f

/-- POP's own rule: EMPTY and no change when empty, else load at `rd` and advance it (41_ring_buffer.md R132). -/
def popByte (s : State) : Host.Outcome State Fault Refusal :=
  if isEmpty s then .next (respond s .empty)
  else match memRead s (loadSlot s) with
    | .ok v => .next (respond (setRd s (nextCursor s s.rd)) (.ok v))
    | .error f => .fault f

/-- PUSH b (41_ring_buffer.md R131). -/
def execPush (b : Byte) (s : State) : Host.Outcome State Fault Refusal :=
  guarded .ring s (pushByte s b)

/-- POP (41_ring_buffer.md R132). -/
def execPop (s : State) : Host.Outcome State Fault Refusal :=
  guarded .ring s (popByte s)

/-- ISEMPTY: `0x01` if `wr == rd`, else `0x00`; nothing written (41_ring_buffer.md R133). -/
def execIsempty (s : State) : Host.Outcome State Fault Refusal :=
  guarded .ring s (.next (respond s (.ok (boolByte (isEmpty s)))))

/-- CLEAR: `wr <- 0; rd <- 0`; `mem` is not written (41_ring_buffer.md R134). -/
def execClear (s : State) : Host.Outcome State Fault Refusal :=
  guarded .ring s (.next (respond (setRd (setWr s 0) 0) (.ok 0x00)))

end Sys2Proof.Machine
end

