-- ==== Sys2Proof/Machine/Dispatch.lean ====
section
/-! DEFINITION. One arm for each command: the meaning it has (30_encoding.md R62). -/

namespace Sys2Proof.Machine

def exec (i : Instr) (s : State) : Host.Outcome State Fault Refusal :=
  match i with
  | .stepDot => Sys2Proof.Machine.execStepDot s
  | .stepDash => Sys2Proof.Machine.execStepDash s
  | .stepSpace => Sys2Proof.Machine.execStepSpace s
  | .flush => Sys2Proof.Machine.execFlush s
  | .push b => Sys2Proof.Machine.execPush b s
  | .pop => Sys2Proof.Machine.execPop s
  | .isempty => Sys2Proof.Machine.execIsempty s
  | .clear => Sys2Proof.Machine.execClear s
  | .csenter => Sys2Proof.Machine.execCsenter s
  | .csexit => Sys2Proof.Machine.execCsexit s
  | .iret => Sys2Proof.Machine.execIret s

end Sys2Proof.Machine
end

