-- ==== Sys2Proof/Machine/Step.lean ====
section
/-!
DEFINITION. One step of the block (00_scope.md R7, 60_exceptions.md R167): a reset, a grant, a command, or nothing.
-/

namespace Sys2Proof.Machine

/-- Run an accepted word: the encoding check first, then the command with its guard and its own rule (30_encoding.md R70). -/
def execWord (w : CommandWord) (s : State) : Host.Outcome State Fault Refusal :=
  match decode w with
  | .ok i => exec i s
  | .error _ => .next (refuseIllegal s)

/-- One step (60_exceptions.md R167). -/
def step (s : State) : Host.Outcome State Fault Refusal :=
  match choose s with
  | .reset => .next (performReset (passLines s))
  | .grant => .next (takeGrant (passLines s))
  | .command w => execWord w (accepted s)
  | .idle => .next (idle (passLines s))

/-- The state in which the given opcode-table word is what the very next step runs: it is presented on the command port
(10_state.md R21). Log 3, log 17. -/
def State.withFetchWord (s : State) (nbits w : Nat) : State := presentWord s nbits w

end Sys2Proof.Machine
end

