-- ==== Sys2Proof/Machine/Assembler.lean ====
section
/-!
DEFINITION. The assembler of the spec's listings (30_encoding.md R69): each command's text, the pseudo-instructions' expansions, and
how a listing with its directives is laid out as what the environment presents. No step calls it. Log 18.
-/

namespace Sys2Proof.Machine

/-- A command's syntax, PUSH's byte in decimal (30_encoding.md R69). -/
def asmText : Instr → String
  | .stepDot => "step.dot"
  | .stepDash => "step.dash"
  | .stepSpace => "step.space"
  | .flush => "flush"
  | .push b => "push " ++ toString b.toNat
  | .pop => "pop"
  | .isempty => "isempty"
  | .clear => "clear"
  | .csenter => "csenter"
  | .csexit => "csexit"
  | .iret => "iret"

/-- The commands a listing line stands for, in order (30_encoding.md R69). -/
def expand : AsmLine → List Instr
  | .command i => [i]
  | .gpush b => [.csenter, .push b, .csexit]
  | .gpop => [.csenter, .pop, .csexit]
  | .gisempty => [.csenter, .isempty, .csexit]
  | .gclear => [.csenter, .clear, .csexit]
  | .morse marks => marks.map stepOf

/-- The words of a list of lines (30_encoding.md R62, R69). -/
def assemble (ls : List AsmLine) : List CommandWord := (ls.flatMap expand).map encode

/-- Add one command to what the environment presents, `irq` at the given level, from the context that executes. -/
def appendCommand (s : State) (irq inh : Bool) (i : Instr) : State :=
  let s' : State := { s with lines := s.lines ++ [{ rst := false, irq := irq, cmdValid := true }] }
  if inh then { s' with ih := s.ih ++ [encode i] } else { s' with fg := s.fg ++ [encode i] }

/-- Add a line's commands; an IRET among them ends the handler. Answers the state and whether a handler still executes. -/
def appendCommands (irq : Bool) : List Instr → State → Bool → State × Bool
  | [], s, inh => (s, inh)
  | i :: is, s, inh => appendCommands irq is (appendCommand s irq inh i) (inh && i != .iret)

/-- Lay a listing out as the levels and words the environment presents, given the level of `irq` and whether a handler executes
(30_encoding.md R69). -/
def layOut : List ListingItem → State → Bool → Bool → State
  | [], s, _, _ => s
  | .asm l :: rest, s, irq, inh =>
    let r := appendCommands irq (expand l) s inh
    layOut rest r.1 irq r.2
  | .irq :: rest, s, _, inh => layOut rest s true inh
  | .drop :: rest, s, _, inh => layOut rest s false inh
  | .grant :: rest, s, irq, _ =>
    layOut rest { s with lines := s.lines ++ [{ rst := false, irq := irq, cmdValid := false }] } irq true

/-- The state with a listing presented after whatever the environment already presents. -/
def loadListing (s : State) (listing : List ListingItem) : State := layOut listing s false s.inh

end Sys2Proof.Machine
end

