-- ==== Sys2Proof/Machine/Environment.lean ====
section
/-!
DEFINITION. The surrounding software's pure functions, which decide what the block is fed: TimingClassifier, the symbol choice of
DetectionLoop, SymbolEncoder (00_scope.md R12 to R15) and the Morse code table (40_decoder_fsm.md R81). They are no part of the
block and no step calls them (00_scope.md R4). Log 16.
-/

namespace Sys2Proof.Machine

/-- TimingClassifier (00_scope.md R12). -/
def classify (ticks : Nat) : Symbol :=
  if ticks ≤ 3 then .dot else if ticks ≤ 7 then .dash else .space

/-- What DetectionLoop feeds after a mark of so many ticks: an over-long mark is a Dash (00_scope.md R13). -/
def feedAfterMark (ticks : Nat) : Symbol :=
  match classify ticks with
  | .dot => .dot
  | .dash => .dash
  | .space => .dash

/-- What DetectionLoop feeds after a gap of so many ticks, with its `wordBoundary` flag (00_scope.md R13). -/
def feedAfterGap (ticks : Nat) : Option Symbol × Bool :=
  match classify ticks with
  | .dot => (none, false)
  | .dash => (some .space, false)
  | .space => (some .space, true)

/-- What DetectionLoop feeds on a tick without an edge, with its `wordBoundary` flag, once the count exceeds the Space threshold
(00_scope.md R14). R14 does not say whether it feeds again on the later ticks of one interval; this answers the same symbol at every
count above 7. DESIGN CHOICE, log 20. -/
def feedOnTick (pressed : Bool) (ticks : Nat) : Option (Symbol × Bool) :=
  match classify ticks with
  | .dot => none
  | .dash => none
  | .space => some (if pressed then (.dash, false) else (.space, true))

/-- What DetectionLoop returns of the byte the FSM emitted: nothing for `0x00` (00_scope.md R14, 40_decoder_fsm.md R125). -/
def detectionResult (emitted : Byte) (wordBoundary : Bool) : Option (Byte × Bool) :=
  if emitted = 0 then none else some (emitted, wordBoundary)

/-- The Morse code table of 40_decoder_fsm.md R81: an upper-case letter's or a digit's ASCII value and its code. UNVERIFIED: the
spec supplies it from general knowledge, log 15. -/
def codeTable : List (Byte × List Symbol) :=
  [(0x41, [.dot, .dash]), (0x42, [.dash, .dot, .dot, .dot]), (0x43, [.dash, .dot, .dash, .dot]),
   (0x44, [.dash, .dot, .dot]), (0x45, [.dot]), (0x46, [.dot, .dot, .dash, .dot]),
   (0x47, [.dash, .dash, .dot]), (0x48, [.dot, .dot, .dot, .dot]), (0x49, [.dot, .dot]),
   (0x4A, [.dot, .dash, .dash, .dash]), (0x4B, [.dash, .dot, .dash]), (0x4C, [.dot, .dash, .dot, .dot]),
   (0x4D, [.dash, .dash]), (0x4E, [.dash, .dot]), (0x4F, [.dash, .dash, .dash]),
   (0x50, [.dot, .dash, .dash, .dot]), (0x51, [.dash, .dash, .dot, .dash]), (0x52, [.dot, .dash, .dot]),
   (0x53, [.dot, .dot, .dot]), (0x54, [.dash]), (0x55, [.dot, .dot, .dash]),
   (0x56, [.dot, .dot, .dot, .dash]), (0x57, [.dot, .dash, .dash]), (0x58, [.dash, .dot, .dot, .dash]),
   (0x59, [.dash, .dot, .dash, .dash]), (0x5A, [.dash, .dash, .dot, .dot]),
   (0x30, [.dash, .dash, .dash, .dash, .dash]), (0x31, [.dot, .dash, .dash, .dash, .dash]),
   (0x32, [.dot, .dot, .dash, .dash, .dash]), (0x33, [.dot, .dot, .dot, .dash, .dash]),
   (0x34, [.dot, .dot, .dot, .dot, .dash]), (0x35, [.dot, .dot, .dot, .dot, .dot]),
   (0x36, [.dash, .dot, .dot, .dot, .dot]), (0x37, [.dash, .dash, .dot, .dot, .dot]),
   (0x38, [.dash, .dash, .dash, .dot, .dot]), (0x39, [.dash, .dash, .dash, .dash, .dot])]

/-- The code of a character of the table. -/
def codeOf (c : Byte) : Option (List Symbol) := (codeTable.find? (fun e => e.1 == c)).map Prod.snd

/-- The upper-case form of an ASCII byte: a lower-case letter's capital, any other byte itself (00_scope.md R15). -/
def upperCase (c : Byte) : Byte := if 0x61 ≤ c.toNat ∧ c.toNat ≤ 0x7A then c - 0x20 else c

/-- The four whitespace bytes: space, tab, CR, LF (00_scope.md R15). -/
def isWhitespace (c : Byte) : Bool := c == 0x20 || c == 0x09 || c == 0x0D || c == 0x0A

/-- SymbolEncoder (00_scope.md R15): a letter of either case or a digit to its code, a whitespace byte to one Space, any other
byte to nothing. -/
def byteToSymbols (c : Byte) : List Symbol :=
  if isWhitespace c then [.space] else (codeOf (upperCase c)).getD []

end Sys2Proof.Machine
end

