-- ==== Sys2Proof/Safety.lean ====
section
/-!
DEFINITION. The terms claims are stated in: the invariant of reachable states, the bytes the ring buffer holds, runs of steps and
of commands with what they show, the spec's notion of a refused step, the environment's duty on `irq`, and the clean end of a run.
-/

namespace Sys2Proof.Machine

/-! ### What the ring buffer holds -/

/-- The occupied slots `rd, rd+1, ..., wr-1`, indices modulo N, oldest first (10_state.md R25). -/
def occupiedSlots (s : State) : List Nat :=
  (List.range (occupancy s)).map (fun j => (s.rd + j) % slots s)

/-- The bytes held, oldest first: the state form of the FIFO law (41_ring_buffer.md R137). -/
def contents (s : State) : List Byte := (occupiedSlots s).map (slotByte s)

/-! ### The invariant -/

/-- Both cursors are K-bit values (10_state.md R24). -/
def CursorsInRange (s : State) : Prop := s.wr < slots s ∧ s.rd < slots s

/-- What holds of the block in every state a run reaches. -/
structure Inv (s : State) : Prop where
  /-- `K >= 1` (00_scope.md R5). -/
  paramPos : 1 ≤ s.k
  /-- The cursors are K-bit values (10_state.md R24). -/
  cursors : CursorsInRange s
  /-- `mask` and `inh` are never both 1 (10_state.md R28). -/
  notBoth : ¬ (s.mask = true ∧ s.inh = true)
  /-- The memory is in its canonical form. -/
  memWf : Memory.wf s.mem
  /-- Only slots 0 to N-1 are listed (20_memory.md R44). -/
  memInRange : ∀ c ∈ s.mem, c.1 < slots s
  /-- Every occupied slot holds a byte that a PUSH stored (10_state.md R34). -/
  written : ∀ i ∈ occupiedSlots s, (Memory.lookup s.mem i).isSome = true

/-! ### Runs of commands -/

/-- Run commands one after another with no grant between, as in a critical section or a handler (42_arbitration.md R154): the last
state and what each command showed; none if one stops. -/
def runCommands : List Instr → State → Option (State × List Output)
  | [], s => some (s, [])
  | i :: is, s =>
    match exec i s with
    | .next t => (runCommands is t).map (fun r => (r.1, t.out :: r.2))
    | .fault _ => none
    | .refused _ => none

/-- The byte of an OK response other than `0x00`: what DetectionLoop takes as emitted (00_scope.md R10). -/
def emittedByte : Output → Option Byte
  | .response (.ok d) => if d = 0 then none else some d
  | .response .full => none
  | .response .empty => none
  | .response .guard => none
  | .response .illegal => none
  | .quiet => none
  | .grantAck => none

/-! ### Runs of steps -/

/-- What one step was, and what it showed. -/
inductive Event where
  | reset
  | grant
  | command (w : CommandWord) (o : Output)
  | idle
  deriving DecidableEq, Repr

/-- The event of the step from `s` to `t`. -/
def eventOf (s t : State) : Event :=
  match choose s with
  | .reset => .reset
  | .grant => .grant
  | .command w => .command w t.out
  | .idle => .idle

/-- `n` steps and their events, first event first; none if a step stops. -/
def trace : Nat → State → Option (State × List Event)
  | 0, s => some (s, [])
  | n + 1, s =>
    match step s with
    | .next t => (trace n t).map (fun r => (r.1, eventOf s t :: r.2))
    | .fault _ => none
    | .refused _ => none

/-- The event is a command, decoded as `i`, that answered OK. -/
def Event.isOk (i : Instr) : Event → Bool
  | .command w (.response (.ok _)) => decide (decode w = .ok i)
  | .command _ _ => false
  | .reset => false
  | .grant => false
  | .idle => false

/-- The byte a successful PUSH stored in this step (41_ring_buffer.md section 3: successful means OK). -/
def pushedByte : Event → Option Byte
  | .command w (.response (.ok _)) =>
    match decode w with
    | .ok (.push b) => some b
    | .ok _ => none
    | .error _ => none
  | .command _ _ => none
  | .reset => none
  | .grant => none
  | .idle => none

/-- The byte a successful POP returned in this step. -/
def poppedByte : Event → Option Byte
  | .command w (.response (.ok d)) => if decode w = .ok .pop then some d else none
  | .command _ _ => none
  | .reset => none
  | .grant => none
  | .idle => none

/-- The step discards what the buffer holds: a reset, or a CLEAR that answered OK (41_ring_buffer.md R137). -/
def Event.empties (e : Event) : Bool := e == .reset || e.isOk .clear

/-- The step is a refusal in the spec's sense: status GUARD or ILLEGAL, after which the run is outside the specified discipline
(42_arbitration.md R155, 60_exceptions.md R161, R162). Log 4, log 5. -/
def Event.isRefusal : Event → Bool
  | .command _ (.response .guard) => true
  | .command _ (.response .illegal) => true
  | .command _ _ => false
  | .reset => false
  | .grant => false
  | .idle => false

/-- A safe run of `n` steps: it stops nowhere, and no step of it is a refusal in the spec's sense (42_arbitration.md R155). -/
def SafeRun (n : Nat) (s : State) : Prop :=
  ∃ t es, trace n s = some (t, es) ∧ ∀ e ∈ es, e.isRefusal = false

/-! ### The environment -/

/-- The duty over the next `n` steps, given the level of `irq` before them and whether a request is owed a grant. A rise of `irq` is
a request; a grant settles it, after which the line may fall in the handler, or stay high and be granted again; a request that is
owed keeps the line high in the next step (60_exceptions.md R166). -/
def holdsRequestFrom : Nat → Bool → Bool → State → Bool
  | 0, _, _, _ => true
  | n + 1, before, owed, s =>
    let irq := (currentLines s).irq
    let owed' := (owed || (irq && !before)) && choose s != .grant
    match step s with
    | .next t => (!owed' || (currentLines t).irq) && holdsRequestFrom n irq owed' t
    | .fault _ => true
    | .refused _ => true

/-- The duty on `irq` over the first `n` steps: from the moment a handler is wanted until the grant for it, `irq` stays at 1
(60_exceptions.md R166, 70_reset_and_hazards.md R192 row 4). A line that is high where the run starts is a request not granted yet, but
in a handler it may be the one just granted. The model does not impose the duty; a claim that needs it names it. Log 12. -/
def holdsRequest (n : Nat) (s : State) : Bool := holdsRequestFrom n s.inh false s

/-- The environment presents no further command: `cmd_valid` is low in every step to come, or neither context has a word left. -/
def noFurtherCommand (s : State) : Bool :=
  s.lines.all (fun l => !l.cmdValid) || (s.fg.isEmpty && s.ih.isEmpty)

/-- The clean end of a run: the environment presents no further command, `irq` is 0, and the arbitration state is (0, 0)
(70_reset_and_hazards.md R191); the final state is `s.toBlock`. `irq` is asked at this point only, and `rst` not at all; that "no
further" reaches over all the steps to come is the model's choice. DESIGN CHOICE, log 21. -/
def cleanEnd (s : State) : Bool := noFurtherCommand s && !(currentLines s).irq && !s.inh && !s.mask

end Sys2Proof.Machine
end

