-- ==== Sys2Proof/Certificates/Slice0/Obligations.lean ====
section
/-!
DEFINITION. The statements for the provers, each a proposition about the model; OBLIGATIONS.json lists them with the rules they
formalise.
-/

namespace Sys2Proof.Claims

open Sys2Proof.Machine

/-- A command step that answered OK with a datum. -/
abbrev okOut (d : Byte) : Output := .response (.ok d)

/-- Ring-buffer commands are admitted: in a handler, or in a foreground critical section. -/
abbrev ringAdmitted (s : State) : Prop := s.inh = true ∨ s.mask = true

/-- A foreground or handler state that is not the unreachable (1, 1). -/
abbrev arbitrationLegal (s : State) : Prop := ¬ (s.mask = true ∧ s.inh = true)

/-- Walk the table from a state, with the new state and the bytes emitted, for any choice of the table's two parameters. -/
def walkTable (inv : DecoderState → Symbol → DecoderState) (dig : DecoderState → Byte) :
    DecoderState → List Symbol → DecoderState × List Byte
  | node, [] => (node, [])
  | node, y :: ys =>
    let r := transitionWith inv dig node y
    let rest := walkTable inv dig r.1 ys
    (rest.1, r.2 :: rest.2)

/-- State `node` has this code and is where this prefix leads from Start, emitting nothing; and from it, in the foreground, the three
STEP commands make these three entries of T and change nothing else. -/
def RowIs (code : BitVec 5) (marks : List Symbol) (node : DecoderState) (dot dash space : DecoderState × Byte) : Prop :=
  stateCode node = code ∧
  walkTable invalidNext digPrefixSpaceByte .start marks = (node, List.replicate marks.length 0x00) ∧
  ∀ s : State, s.st = node → s.inh = false →
    exec .stepDot s = .next { s with st := dot.1, out := okOut dot.2 } ∧
    exec .stepDash s = .next { s with st := dash.1, out := okOut dash.2 } ∧
    exec .stepSpace s = .next { s with st := space.1, out := okOut space.2 }

/-- The guard table of 42_arbitration.md R150 as its three columns print it; the column (1, 1) does not exist. -/
def guardTable (i : Instr) (inh mask : Bool) : Bool :=
  match i, inh, mask with
  | .stepDot, false, _ => true
  | .stepDash, false, _ => true
  | .stepSpace, false, _ => true
  | .flush, false, _ => true
  | .push _, false, true => true
  | .push _, true, false => true
  | .pop, false, true => true
  | .pop, true, false => true
  | .isempty, false, true => true
  | .isempty, true, false => true
  | .clear, false, true => true
  | .clear, true, false => true
  | .csenter, false, false => true
  | .csexit, false, true => true
  | .iret, true, false => true
  | _, _, _ => false

/-- The four FSM commands. -/
def fsmCommands : List Instr := [.stepDot, .stepDash, .stepSpace, .flush]

/-- The three arbitration commands. -/
def arbitrationCommands : List Instr := [.csenter, .csexit, .iret]

/-- The step from `s` runs one of these commands. -/
def RunsOneOf (s : State) (is : List Instr) : Prop := ∃ w i, choose s = .command w ∧ decode w = .ok i ∧ i ∈ is

end Sys2Proof.Claims

open Sys2Proof Sys2Proof.Machine Sys2Proof.Claims

/-! ### Encoding -/

/-- No bit of an encoding is dropped: every command's word decodes to that command, with every operand
(30_encoding.md sections 2 to 4). -/
def Obligations.DecodeInvertsEncode : Prop := ∀ i : Instr, i.wf = true → decode (encode i) = .ok i

/-- Every word that decodes is the one word of its command: no word is an alias of another (30_encoding.md sections 2 to 4). -/
def Obligations.EncodeInvertsDecode : Prop := ∀ (w : CommandWord) (i : Instr), decode w = .ok i → encode i = w

/-- The opcode map of 30_encoding.md R62: its eleven rows, that a word decodes to a command of exactly the row it selects, that the
rows are disjoint, that a word that selects no row is illegal, that PUSH's operand is the whole low byte, and that 266 words are
legal. -/
def Obligations.DecodeFollowsOpcodeMap : Prop :=
  opcodeRows =
    [⟨"STEP.DOT", 0x100, 0xFFF⟩, ⟨"STEP.DASH", 0x101, 0xFFF⟩, ⟨"STEP.SPACE", 0x102, 0xFFF⟩, ⟨"FLUSH", 0x200, 0xFFF⟩,
     ⟨"PUSH", 0x400, 0xF00⟩, ⟨"POP", 0x500, 0xFFF⟩, ⟨"ISEMPTY", 0x600, 0xFFF⟩, ⟨"CLEAR", 0x700, 0xFFF⟩,
     ⟨"CSENTER", 0x800, 0xFFF⟩, ⟨"CSEXIT", 0x900, 0xFFF⟩, ⟨"IRET", 0xA00, 0xFFF⟩] ∧
  (∀ (w : CommandWord) (i : Instr), decode w = .ok i →
    rowOf i ∈ opcodeRows ∧ w &&& (rowOf i).mask = (rowOf i).pattern) ∧
  (∀ (w : CommandWord) (r : OpcodeRow), r ∈ opcodeRows → w &&& r.mask = r.pattern →
    ∃ i, decode w = .ok i ∧ rowOf i = r) ∧
  (∀ (w : CommandWord) (r r' : OpcodeRow), r ∈ opcodeRows → r' ∈ opcodeRows →
    w &&& r.mask = r.pattern → w &&& r'.mask = r'.pattern → r = r') ∧
  (∀ w : CommandWord, (∀ r ∈ opcodeRows, w &&& r.mask ≠ r.pattern) → ∃ e, decode w = .error e) ∧
  (∀ b : Byte, decode (0x4#4 ++ b) = .ok (.push b)) ∧
  ((List.range 4096).filter (fun n => (decodeTableWord 12 n).isSome)).length = 266

/-- A word is illegal iff one of the three clauses of 30_encoding.md R67 holds of it, and an illegal word presented is accepted as a
step that changes no state and answers ILLEGAL, in every arbitration state alike; the step counts as a refusal in the spec's sense. -/
def Obligations.IllegalWordsChangeNothing : Prop :=
  (∀ w : CommandWord, (∃ e, decode w = .error e) ↔
    ((w.toNat / 256 ∈ [0x0, 0x3, 0xB, 0xC, 0xD, 0xE, 0xF]) ∨
     (w.toNat / 256 ∈ [0x2, 0x5, 0x6, 0x7, 0x8, 0x9, 0xA] ∧ w.toNat % 256 ≠ 0) ∨
     (w.toNat / 256 = 0x1 ∧ 0x03 ≤ w.toNat % 256))) ∧
  (∀ (s : State) (w : CommandWord) (e : IllegalWord), choose s = .command w → decode w = .error e →
    ∃ t, step s = .next t ∧ t = { accepted s with out := .response .illegal } ∧ (pins t).rw = some 0x400 ∧
      (eventOf s t).isRefusal = true)

/-- A few words written out from the opcode map decode to the commands they stand for (30_encoding.md section 3). -/
def Obligations.WordsWrittenOutDecode : Prop :=
  decode 0b000100000000#12 = .ok .stepDot ∧ decode 0b000100000001#12 = .ok .stepDash ∧
  decode 0b000100000010#12 = .ok .stepSpace ∧ decode 0b001000000000#12 = .ok .flush ∧
  decode 0b010001000001#12 = .ok (.push 0x41) ∧ decode 0b010100000000#12 = .ok .pop ∧
  decode 0b011000000000#12 = .ok .isempty ∧ decode 0b011100000000#12 = .ok .clear ∧
  decode 0b100000000000#12 = .ok .csenter ∧ decode 0b100100000000#12 = .ok .csexit ∧
  decode 0b101000000000#12 = .ok .iret

/-! ### The step -/

/-- A step runs the decoded command: where no reset and no grant is due and the executing context presents a word that decodes to a
command, the step is that command's meaning in the state whose lines and whose context's words have moved on by one
(00_scope.md section 5, 10_state.md R21). -/
def Obligations.StepRunsDecodedCommand : Prop :=
  ∀ (s : State) (l : Lines) (ls : List Lines) (w : CommandWord) (ws : List CommandWord) (i : Instr),
    s.lines = l :: ls → l.rst = false → (l.irq && !s.mask && !s.inh) = false → l.cmdValid = true →
    (if s.inh then s.ih else s.fg) = w :: ws → decode w = .ok i →
    step s = exec i { s with lines := ls, fg := if s.inh then s.fg else ws, ih := if s.inh then ws else s.ih }

/-- The next step is chosen as 60_exceptions.md R167 says: reset, else grant, else the command presented, else nothing, which
changes nothing of the block; a word that is presented while a reset or a grant is taken is not accepted. That it waits over a reset,
and what the ports show in a reset step, are the model's choices (log 14, log 13). -/
def Obligations.StepChosenByPriority : Prop :=
  ∀ (s : State) (l : Lines) (ls : List Lines), s.lines = l :: ls →
    (l.rst = true → step s = .next (performReset { s with lines := ls })) ∧
    (l.rst = false → l.irq = true → s.mask = false → s.inh = false →
      step s = .next (takeGrant { s with lines := ls })) ∧
    (l.rst = false → (l.irq = false ∨ s.mask = true ∨ s.inh = true) →
      (l.cmdValid = true → ∀ w ws, (if s.inh then s.ih else s.fg) = w :: ws →
        step s = execWord w { s with lines := ls, fg := if s.inh then s.fg else ws, ih := if s.inh then ws else s.ih }) ∧
      (l.cmdValid = false ∨ (if s.inh then s.ih else s.fg) = [] →
        ∃ t, step s = .next t ∧ t = { s with lines := ls, out := t.out }))

/-- The grant of 60_exceptions.md R165: with `irq` 1, `mask` 0 and `inh` 0 it sets `inh` and nothing else of the block, shows `iack` 1
and no response word, and lets a presented word wait. -/
def Obligations.GrantEntersHandler : Prop :=
  ∀ (s : State) (l : Lines) (ls : List Lines),
    s.lines = l :: ls → l.rst = false → l.irq = true → s.mask = false → s.inh = false →
    ∃ t, step s = .next t ∧ t = { s with inh := true, lines := ls, out := .grantAck } ∧
      (pins t).iack = 1 ∧ (pins t).rw = none ∧ ∀ a, slotByte t a = slotByte s a

/-- Each piece of state is written only by the events the spec names for it (10_state.md R22 to R27, 70_reset_and_hazards.md R192
row 9): over any step, `st` only by the FSM commands, `mem` and `wr` by PUSH (`wr` also by CLEAR), `rd` by POP and CLEAR, `mask` by
CSENTER and CSEXIT, `inh` by a grant and IRET, each also by a reset, and the parameter K by nothing. -/
def Obligations.StateWrittenOnlyByItsEvents : Prop :=
  ∀ s t : State, step s = .next t →
    t.k = s.k ∧
    (t.st ≠ s.st → choose s = .reset ∨ RunsOneOf s fsmCommands) ∧
    (t.mem ≠ s.mem → choose s = .reset ∨ ∃ b, RunsOneOf s [.push b]) ∧
    (t.wr ≠ s.wr → choose s = .reset ∨ RunsOneOf s [.clear] ∨ ∃ b, RunsOneOf s [.push b]) ∧
    (t.rd ≠ s.rd → choose s = .reset ∨ RunsOneOf s [.pop, .clear]) ∧
    (t.mask ≠ s.mask → choose s = .reset ∨ (t.mask = true ∧ RunsOneOf s [.csenter]) ∨
      (t.mask = false ∧ RunsOneOf s [.csexit])) ∧
    (t.inh ≠ s.inh → choose s = .reset ∨ (t.inh = true ∧ choose s = .grant) ∨ (t.inh = false ∧ RunsOneOf s [.iret]))

/-- The reset event of 70_reset_and_hazards.md R180: whatever `irq` and the command port show, `st` is Start, both cursors and both
arbitration bits are 0, the buffer holds nothing, the word presented is not executed, and nothing is granted. That the contexts go on
presenting the words they had yet to present is the model's choice, not the rule's (DEDUCED, log 14). -/
def Obligations.ResetEventSetsResetValues : Prop :=
  ∀ (s : State) (l : Lines) (ls : List Lines), s.lines = l :: ls → l.rst = true →
    ∃ t, step s = .next t ∧ t.st = .start ∧ t.wr = 0 ∧ t.rd = 0 ∧ t.mask = false ∧ t.inh = false ∧
      contents t = [] ∧ t.k = s.k ∧ t.lines = ls ∧ t.fg = s.fg ∧ t.ih = s.ih

/-- The state after reset (10_state.md R32), for every parameter (log 1: `State.reset` takes the one of Config): Start, cursors 0,
`mask` and `inh` 0; hence an empty buffer, and POP from it, once admitted, answers EMPTY and ISEMPTY answers `0x01`. What `mem` holds
is not said. -/
def Obligations.ResetStateHasResetValues : Prop :=
  State.reset = State.resetWith Config.rbLog2N ∧ 1 ≤ Config.rbLog2N ∧
  ∀ k, (State.resetWith k).st = .start ∧ (State.resetWith k).wr = 0 ∧ (State.resetWith k).rd = 0 ∧
    (State.resetWith k).mask = false ∧ (State.resetWith k).inh = false ∧
    ∃ t, runCommands [.csenter, .isempty, .pop, .csexit] (State.resetWith k) =
      some (t, [okOut 0, okOut 1, .response .empty, okOut 0])

/-! ### The decoder FSM -/

/-- STEP.DOT, STEP.DASH and STEP.SPACE (40_decoder_fsm.md R115 to R117): `(s2, e) = T(st, y); st <- s2; respond(OK, e)` in the
foreground, whatever `mask` is, GUARD in a handler; their words are 0x100, 0x101, 0x102. -/
def Obligations.StepCommandsFeedTheTable : Prop :=
  (encode .stepDot = 0x100 ∧ encode .stepDash = 0x101 ∧ encode .stepSpace = 0x102) ∧
  ∀ (s : State) (y : Symbol),
    (s.inh = false → exec (stepOf y) s =
      .next { s with st := (transition s.st y).1, out := okOut (transition s.st y).2 }) ∧
    (s.inh = true → exec (stepOf y) s = .next { s with out := .response .guard })

/-- The codes, the prefixes and the rows of T of the states of 40_decoder_fsm.md R84 to R92. -/
def Obligations.RowsStartToU : Prop :=
  RowIs 0 [] .start (.e, 0x00) (.t, 0x00) (.start, 0x00) ∧
  RowIs 1 [.dot] .e (.i, 0x00) (.a, 0x00) (.start, 0x45) ∧
  RowIs 2 [.dash] .t (.n, 0x00) (.m, 0x00) (.start, 0x54) ∧
  RowIs 3 [.dot, .dot] .i (.s, 0x00) (.u, 0x00) (.start, 0x49) ∧
  RowIs 4 [.dot, .dash] .a (.r, 0x00) (.w, 0x00) (.start, 0x41) ∧
  RowIs 5 [.dash, .dot] .n (.d, 0x00) (.k, 0x00) (.start, 0x4E) ∧
  RowIs 6 [.dash, .dash] .m (.g, 0x00) (.o, 0x00) (.start, 0x4D) ∧
  RowIs 7 [.dot, .dot, .dot] .s (.h, 0x00) (.v, 0x00) (.start, 0x53) ∧
  RowIs 8 [.dot, .dot, .dash] .u (.f, 0x00) (.dig2, 0x00) (.start, 0x55)

/-- The codes, the prefixes and the rows of T of the states of 40_decoder_fsm.md R94 to R99. -/
def Obligations.RowsWToH : Prop :=
  RowIs 10 [.dot, .dash, .dash] .w (.p, 0x00) (.j, 0x00) (.start, 0x57) ∧
  RowIs 11 [.dash, .dot, .dot] .d (.b, 0x00) (.x, 0x00) (.start, 0x44) ∧
  RowIs 12 [.dash, .dot, .dash] .k (.c, 0x00) (.y, 0x00) (.start, 0x4B) ∧
  RowIs 13 [.dash, .dash, .dot] .g (.z, 0x00) (.q, 0x00) (.start, 0x47) ∧
  RowIs 14 [.dash, .dash, .dash] .o (.dig8, 0x00) (.dig90, 0x00) (.start, 0x4F) ∧
  RowIs 15 [.dot, .dot, .dot, .dot] .h (.start, 0x35) (.start, 0x34) (.start, 0x48)

/-- The fifteen rows of T that hold one of the 24 entries the spec decides itself (decisions D7 and D8; 40_decoder_fsm.md section 2):
that those entries go to Start with `0x00` is the spec's own choice, which the model follows (log 9, log 10). -/
def Obligations.RowsWithDecidedEntries : Prop :=
  RowIs 9 [.dot, .dash, .dot] .r (.l, 0x00) (.start, 0x00) (.start, 0x52) ∧
  RowIs 16 [.dot, .dot, .dot, .dash] .v (.start, 0x00) (.start, 0x33) (.start, 0x56) ∧
  RowIs 17 [.dot, .dot, .dash, .dot] .f (.start, 0x00) (.start, 0x00) (.start, 0x46) ∧
  RowIs 18 [.dot, .dot, .dash, .dash] .dig2 (.start, 0x00) (.start, 0x32) (.start, 0x00) ∧
  RowIs 19 [.dot, .dash, .dot, .dot] .l (.start, 0x00) (.start, 0x00) (.start, 0x4C) ∧
  RowIs 20 [.dot, .dash, .dash, .dot] .p (.start, 0x00) (.start, 0x00) (.start, 0x50) ∧
  RowIs 21 [.dot, .dash, .dash, .dash] .j (.start, 0x00) (.start, 0x31) (.start, 0x4A) ∧
  RowIs 22 [.dash, .dot, .dot, .dot] .b (.start, 0x36) (.start, 0x00) (.start, 0x42) ∧
  RowIs 23 [.dash, .dot, .dot, .dash] .x (.start, 0x00) (.start, 0x00) (.start, 0x58) ∧
  RowIs 24 [.dash, .dot, .dash, .dot] .c (.start, 0x00) (.start, 0x00) (.start, 0x43) ∧
  RowIs 25 [.dash, .dot, .dash, .dash] .y (.start, 0x00) (.start, 0x00) (.start, 0x59) ∧
  RowIs 26 [.dash, .dash, .dot, .dot] .z (.start, 0x37) (.start, 0x00) (.start, 0x5A) ∧
  RowIs 27 [.dash, .dash, .dot, .dash] .q (.start, 0x00) (.start, 0x00) (.start, 0x51) ∧
  RowIs 28 [.dash, .dash, .dash, .dot] .dig8 (.start, 0x38) (.start, 0x00) (.start, 0x00) ∧
  RowIs 29 [.dash, .dash, .dash, .dash] .dig90 (.start, 0x39) (.start, 0x30) (.start, 0x00)

/-- FLUSH (40_decoder_fsm.md R118): `st <- Start`, nothing emitted, GUARD in a handler; its word is 0x200. -/
def Obligations.FlushReturnsToStart : Prop :=
  encode .flush = 0x200 ∧
  ∀ s : State,
    (s.inh = false → exec .flush s = .next { s with st := .start, out := okOut 0x00 }) ∧
    (s.inh = true → exec .flush s = .next { s with out := .response .guard })

/-- Emission resets (40_decoder_fsm.md section 4), whatever the two parameters of the table are: an entry that emits goes to Start. -/
def Obligations.EmissionReturnsToStart : Prop :=
  ∀ (inv : DecoderState → Symbol → DecoderState) (dig : DecoderState → Byte) (node : DecoderState) (y : Symbol),
    (transitionWith inv dig node y).2 ≠ 0 → (transitionWith inv dig node y).1 = .start

/-- Keying a letter (of either case) or a digit and a Space from Start returns exactly the character in upper case and ends at Start
(40_decoder_fsm.md section 4): a letter with the closing Space, a digit with its fifth symbol. -/
def Obligations.CharacterRoundTrip : Prop :=
  ∀ (s : State) (c : Byte), s.st = .start → s.inh = false → isWhitespace c = false → byteToSymbols c ≠ [] →
    ∃ t os, runCommands ((byteToSymbols c).map stepOf ++ [.stepSpace]) s = some (t, os) ∧
      os.filterMap emittedByte = [upperCase c] ∧ t = { s with out := t.out } ∧
      (0x41 ≤ (upperCase c).toNat →
        os = List.replicate (byteToSymbols c).length (okOut 0) ++ [okOut (upperCase c)]) ∧
      ((upperCase c).toNat < 0x41 → os = List.replicate 4 (okOut 0) ++ [okOut c, okOut 0])

/-- The round trip holds whatever the table's two parameters are, so it rests on none of the 24 entries the spec decides
(40_decoder_fsm.md section 2, 92_eei_decisions.md D7 and D8). -/
def Obligations.RoundTripForEveryParameter : Prop :=
  ∀ (inv : DecoderState → Symbol → DecoderState) (dig : DecoderState → Byte) (c : Byte) (code : List Symbol),
    (c, code) ∈ codeTable →
    (walkTable inv dig .start (code ++ [.space])).1 = .start ∧
    (walkTable inv dig .start (code ++ [.space])).2.filter (fun d => d != 0) = [c]

/-- Every one of the thirty states is reached from Start by at most four marks, emitting nothing on the way
(40_decoder_fsm.md section 4). -/
def Obligations.EveryDecoderStateReached : Prop :=
  ∀ node : DecoderState, ∃ marks : List Symbol, marks.length ≤ 4 ∧ (∀ y ∈ marks, y.isMark = true) ∧
    ∀ s : State, s.st = .start → s.inh = false →
      ∃ t, runCommands (marks.map stepOf) s = some (t, List.replicate marks.length (okOut 0)) ∧
        t = { s with st := node, out := t.out }

/-- Space returns to Start from every state, and further Spaces change and emit nothing (40_decoder_fsm.md section 4). -/
def Obligations.SpacesReturnToStartAndStay : Prop :=
  ∀ (n : Nat) (s : State), s.inh = false →
    ∃ t, runCommands (List.replicate (n + 1) .stepSpace) s =
        some (t, okOut (transition s.st .space).2 :: List.replicate n (okOut 0)) ∧
      t = { s with st := .start, out := t.out }

/-- The byte a STEP command answers is `0x00`, a digit or an upper-case letter, and each of those 36 characters is emitted by exactly
one entry of the table (40_decoder_fsm.md section 4). It rests on the spec's own decision that a Space at a digit's prefix emits nothing
(decision D8, log 10). -/
def Obligations.EmittedBytesAreTheCharacters : Prop :=
  (∀ (s : State) (y : Symbol), s.inh = false →
    ∃ t d, exec (stepOf y) s = .next t ∧ t.out = okOut d ∧
      (d = 0 ∨ (0x30 ≤ d.toNat ∧ d.toNat ≤ 0x39) ∨ (0x41 ≤ d.toNat ∧ d.toNat ≤ 0x5A))) ∧
  (∀ d : Byte, (0x30 ≤ d.toNat ∧ d.toNat ≤ 0x39) ∨ (0x41 ≤ d.toNat ∧ d.toNat ≤ 0x5A) →
    ∃ node sym, (transition node sym).2 = d ∧
      ∀ node' sym', (transition node' sym').2 = d → node' = node ∧ sym' = sym)

/-- From Start, any five marks pass through Start again (40_decoder_fsm.md section 4). It rests on the spec's own decision that a
pattern of no character goes to Start (decision D7, log 9). -/
def Obligations.FiveMarksPassStart : Prop :=
  ∀ (s : State) (marks : List Symbol), s.st = .start → s.inh = false → marks.length = 5 →
    (∀ y ∈ marks, y.isMark = true) →
    ∃ n t os, 1 ≤ n ∧ n ≤ 5 ∧ runCommands ((marks.take n).map stepOf) s = some (t, os) ∧ t.st = .start

/-- The codes of the thirty states on `st_q`: those of 30_encoding.md R64, all different, and never 30 or 31. -/
def Obligations.StateCodesAreDistinct : Prop :=
  (∀ node node' : DecoderState, stateCode node = stateCode node' → node = node') ∧
  (∀ node : DecoderState, (stateCode node).toNat < 30) ∧
  [DecoderState.start, .e, .t, .i, .a, .n, .m, .s, .u, .r, .w, .d, .k, .g, .o, .h, .v, .f, .dig2, .l, .p, .j, .b, .x, .c,
    .y, .z, .q, .dig8, .dig90].map (fun node => (stateCode node).toNat) = List.range 30

/-! ### The ring buffer -/

/-- PUSH (41_ring_buffer.md R131): GUARD when not admitted; FULL and no change when `(wr + 1) mod N == rd`; else the byte is stored at
the write cursor, the write cursor advances modulo N, and nothing else changes. -/
def Obligations.PushStoresAndAdvances : Prop :=
  ∀ (s : State) (b : Byte),
    encode (.push b) = 0x400 + b.setWidth 12 ∧ storeSlot s = s.wr ∧
    (s.inh = false → s.mask = false → exec (.push b) s = .next { s with out := .response .guard }) ∧
    (ringAdmitted s → (s.wr + 1) % 2 ^ s.k = s.rd → exec (.push b) s = .next { s with out := .response .full }) ∧
    (ringAdmitted s → (s.wr + 1) % 2 ^ s.k ≠ s.rd → s.wr < 2 ^ s.k →
      ∃ t, exec (.push b) s = .next t ∧
        t = { s with mem := t.mem, wr := (s.wr + 1) % 2 ^ s.k, out := okOut 0x00 } ∧
        slotByte t (storeSlot s) = b ∧ ∀ a, a ≠ storeSlot s → slotByte t a = slotByte s a)

/-- POP (41_ring_buffer.md R132): GUARD when not admitted; EMPTY and no change when `wr == rd`; else the byte at the read cursor is
answered, the read cursor advances modulo N, and nothing else changes, the slot included. -/
def Obligations.PopReturnsAndAdvances : Prop :=
  encode .pop = 0x500 ∧
  ∀ s : State, loadSlot s = s.rd ∧
    (s.inh = false → s.mask = false → exec .pop s = .next { s with out := .response .guard }) ∧
    (ringAdmitted s → s.wr = s.rd → exec .pop s = .next { s with out := .response .empty }) ∧
    (ringAdmitted s → s.wr ≠ s.rd → s.rd < 2 ^ s.k →
      exec .pop s = .next { s with rd := (s.rd + 1) % 2 ^ s.k, out := okOut (slotByte s (loadSlot s)) })

/-- ISEMPTY (41_ring_buffer.md R133): `0x01` if `wr == rd`, else `0x00`; it writes nothing and is never FULL or EMPTY. -/
def Obligations.IsemptyReportsEmptiness : Prop :=
  encode .isempty = 0x600 ∧
  ∀ s : State,
    (s.inh = false → s.mask = false → exec .isempty s = .next { s with out := .response .guard }) ∧
    (ringAdmitted s → exec .isempty s = .next { s with out := okOut (if s.wr = s.rd then 0x01 else 0x00) })

/-- CLEAR (41_ring_buffer.md R134): both cursors to 0, `mem` not written, always OK where admitted. -/
def Obligations.ClearZeroesCursors : Prop :=
  encode .clear = 0x700 ∧
  ∀ s : State,
    (s.inh = false → s.mask = false → exec .clear s = .next { s with out := .response .guard }) ∧
    (ringAdmitted s → exec .clear s = .next { s with wr := 0, rd := 0, out := okOut 0x00 })

/-- Failure changes nothing and may be repeated any number of times (41_ring_buffer.md R138). -/
def Obligations.FailuresRepeatUnchanged : Prop :=
  ∀ (n : Nat) (s : State), ringAdmitted s →
    (∀ b : Byte, (s.wr + 1) % 2 ^ s.k = s.rd →
      ∃ t, runCommands (List.replicate n (.push b)) s = some (t, List.replicate n (.response .full)) ∧
        t = { s with out := t.out }) ∧
    (s.wr = s.rd →
      ∃ t, runCommands (List.replicate n .pop) s = some (t, List.replicate n (.response .empty)) ∧
        t = { s with out := t.out })

/-- After CLEAR, whatever the buffer held, ISEMPTY answers `0x01` and POP answers EMPTY (41_ring_buffer.md section 3). -/
def Obligations.ClearThenEmpty : Prop :=
  ∀ s : State, ringAdmitted s →
    runCommands [.clear, .isempty, .pop] s =
      some ({ s with wr := 0, rd := 0, out := .response .empty }, [okOut 0, okOut 1, .response .empty])

/-- Occupancy (41_ring_buffer.md section 3): it is at most N - 1; PUSH succeeds iff it is at most N - 2 and raises it by one, POP
succeeds iff it is at least 1 and lowers it by one. -/
def Obligations.OccupancyMovesByOne : Prop :=
  ∀ (s : State) (b : Byte), 1 ≤ s.k → CursorsInRange s → ringAdmitted s →
    occupancy s + 1 ≤ slots s ∧
    (∃ t, exec (.push b) s = .next t ∧
      (t.out = okOut 0 ↔ occupancy s + 2 ≤ slots s) ∧
      occupancy t = (if occupancy s + 2 ≤ slots s then occupancy s + 1 else occupancy s)) ∧
    (∃ t, exec .pop s = .next t ∧
      ((∃ v, t.out = okOut v) ↔ 1 ≤ occupancy s) ∧ occupancy t = occupancy s - 1)

/-- Usable capacity N - 1 (41_ring_buffer.md section 3): from an empty buffer, wherever its cursors stand, exactly N - 1 pushes
succeed, the buffer then holds their bytes oldest first, and the next push answers FULL and changes nothing. -/
def Obligations.CapacityIsSlotsMinusOne : Prop :=
  ∀ (s : State) (bs : List Byte) (b : Byte), 1 ≤ s.k → CursorsInRange s → s.wr = s.rd → ringAdmitted s →
    bs.length + 1 = slots s →
    ∃ t, runCommands (bs.map Instr.push) s = some (t, List.replicate bs.length (okOut 0)) ∧ contents t = bs ∧
      exec (.push b) t = .next { t with out := .response .full }

/-- First in, first out, over any run of steps, whichever contexts issue the commands and whatever the environment drives
(41_ring_buffer.md section 3, 20_memory.md R46): between resets and CLEARs the bytes held before the run and those pushed in it are,
in order, those popped in it and those held after it; so from an empty buffer the popped bytes are the first pushed ones. -/
def Obligations.FifoOverEveryRun : Prop :=
  ∀ (n : Nat) (s t : State) (es : List Event), Inv s → trace n s = some (t, es) →
    (∀ e ∈ es, e.empties = false) →
    contents s ++ es.filterMap pushedByte = es.filterMap poppedByte ++ contents t ∧
    (s.wr = s.rd → es.filterMap poppedByte <+: es.filterMap pushedByte)

/-- No POP returns a byte that nothing wrote (10_state.md section 3): in every state of the invariant the byte a successful POP
answers is the one the memory lists for the slot at the read cursor, never a free value. -/
def Obligations.PopNeverReadsUnwrittenSlot : Prop :=
  ∀ (s t : State) (v : Byte), Inv s → exec .pop s = .next t → t.out = okOut v →
    Memory.lookup s.mem s.rd = some v

/-- What a host reads back (70_reset_and_hazards.md R191): in the arbitration state (0, 0), repeating `gpop` until EMPTY answers the
bytes held, oldest first, and leaves the state (0, 0) and the buffer empty. -/
def Obligations.ReadBackYieldsContents : Prop :=
  ∀ s : State, Inv s → s.inh = false → s.mask = false →
    ∃ t, runCommands ((List.replicate (occupancy s + 1) AsmLine.gpop).flatMap expand) s =
        some (t, (contents s).flatMap (fun b => [okOut 0, okOut b, okOut 0]) ++
          [okOut 0, .response .empty, okOut 0]) ∧
      t = { s with rd := s.wr, out := t.out }

/-! ### Arbitration -/

/-- The guard table (42_arbitration.md R150): a command the table does not admit answers GUARD and changes nothing; a command it admits
runs, and does not answer GUARD. -/
def Obligations.GuardTableHolds : Prop :=
  ∀ (s : State) (i : Instr), arbitrationLegal s → CursorsInRange s →
    (guardTable i s.inh s.mask = false → exec i s = .next { s with out := .response .guard }) ∧
    (guardTable i s.inh s.mask = true → ∃ t, exec i s = .next t ∧ t.out ≠ .response .guard)

/-- CSENTER (42_arbitration.md R151): from (0, 0) it sets `mask` and nothing else; else GUARD and no change. -/
def Obligations.CsenterOpensSection : Prop :=
  encode .csenter = 0x800 ∧
  ∀ s : State,
    (s.inh = false → s.mask = false → exec .csenter s = .next { s with mask := true, out := okOut 0x00 }) ∧
    (s.inh = true ∨ s.mask = true → exec .csenter s = .next { s with out := .response .guard })

/-- CSEXIT (42_arbitration.md R152): from (0, 1) it clears `mask` and nothing else; else GUARD and no change; and if `irq` is 1 the
very next step is the grant. -/
def Obligations.CsexitClosesSection : Prop :=
  encode .csexit = 0x900 ∧
  ∀ s : State,
    (s.inh = false → s.mask = true →
      exec .csexit s = .next { s with mask := false, out := okOut 0x00 } ∧
      ((currentLines s).rst = false → (currentLines s).irq = true →
        choose { s with mask := false, out := okOut 0x00 } = .grant)) ∧
    (s.inh = true ∨ s.mask = false → exec .csexit s = .next { s with out := .response .guard })

/-- IRET (42_arbitration.md R153): with `inh` 1 it clears `inh` and restores nothing; else GUARD and no change; and if `irq` is 1 when
it completes, with `mask` 0, the very next step is another grant. -/
def Obligations.IretEndsHandler : Prop :=
  encode .iret = 0xA00 ∧
  ∀ s : State,
    (s.inh = true →
      exec .iret s = .next { s with inh := false, out := okOut 0x00 } ∧
      (s.mask = false → (currentLines s).rst = false → (currentLines s).irq = true →
        choose { s with inh := false, out := okOut 0x00 } = .grant)) ∧
    (s.inh = false → exec .iret s = .next { s with out := .response .guard })

/-- `mask` and `inh` are never both 1 (10_state.md section 4): every step keeps it. -/
def Obligations.MaskAndInhNeverBoth : Prop :=
  ∀ s t : State, arbitrationLegal s → step s = .next t → arbitrationLegal t

/-- A critical section is atomic (42_arbitration.md section 3, clause a): over any run that starts inside one and in which neither a
CSEXIT succeeds nor a reset falls, it stays open, no grant falls, and no handler word is accepted. -/
def Obligations.CriticalSectionIsAtomic : Prop :=
  ∀ (n : Nat) (s t : State) (es : List Event), s.mask = true → s.inh = false → trace n s = some (t, es) →
    (∀ e ∈ es, e.isOk .csexit = false ∧ e ≠ .reset) →
    t.mask = true ∧ t.inh = false ∧ t.ih = s.ih ∧ ∀ e ∈ es, e ≠ .grant

/-- A handler is atomic (42_arbitration.md section 3, clause b): over any run that starts in one and in which neither an IRET succeeds
nor a reset falls, it goes on, no second grant falls, no foreground word is accepted, and `st` and `mask` do not change. -/
def Obligations.HandlerIsAtomic : Prop :=
  ∀ (n : Nat) (s t : State) (es : List Event), s.inh = true → s.mask = false → trace n s = some (t, es) →
    (∀ e ∈ es, e.isOk .iret = false ∧ e ≠ .reset) →
    t.inh = true ∧ t.mask = false ∧ t.fg = s.fg ∧ t.st = s.st ∧ ∀ e ∈ es, e ≠ .grant

/-- A request raised inside a critical section is held and granted at the first step after it (60_exceptions.md R166): if `irq` is 1
inside one, the environment keeps its duty to hold it, and the run's last step is the first CSEXIT that succeeds, then the next step
is the grant, unless a reset is asserted in it. -/
def Obligations.HeldRequestIsGranted : Prop :=
  ∀ (n : Nat) (s t : State) (es : List Event) (e : Event),
    s.mask = true → s.inh = false → (currentLines s).irq = true → holdsRequest (n + 1) s = true →
    trace (n + 1) s = some (t, es ++ [e]) → (∀ e' ∈ es, e'.isOk .csexit = false ∧ e' ≠ .reset) →
    e.isOk .csexit = true → (currentLines t).rst = false →
    step t = .next (takeGrant (passLines t))

/-- No deadlock inside the block (42_arbitration.md section 3): in each reachable arbitration state one of CSENTER, CSEXIT, IRET
answers OK and leads to another arbitration state. -/
def Obligations.NoArbitrationDeadlock : Prop :=
  ∀ s : State, arbitrationLegal s →
    ∃ i ∈ arbitrationCommands, ∃ t, exec i s = .next t ∧ t.out = okOut 0 ∧ (t.inh, t.mask) ≠ (s.inh, s.mask)

/-! ### The whole machine -/

/-- Every step from a state of the invariant leads to a state of the invariant: K at least 1, cursors K-bit values, never both
arbitration bits, memory canonical and inside 0 to N-1, every occupied slot written (10_state.md sections 3 and 4). -/
def Obligations.EveryStepKeepsInvariant : Prop := ∀ s t : State, Inv s → step s = .next t → Inv t

/-- The invariant holds right after reset, for every K at least 1 (10_state.md section 8). -/
def Obligations.InvariantHoldsAtReset : Prop :=
  Inv State.reset ∧ ∀ k, 1 ≤ k → Inv (State.resetWith k)

/-- There is no state from which the block cannot continue (60_exceptions.md R163): from a state of the invariant every run of any
length goes on, with no `Outcome.fault` and no `Outcome.refused`, whatever the environment presents. GUARD and ILLEGAL, which the
spec has a model treat as refusals, are answers here after which the run goes on: the model's choice (DESIGN CHOICE, log 4, log 5). -/
def Obligations.RunsNeverStop : Prop :=
  ∀ (n : Nat) (s : State), Inv s → ∃ t es, trace n s = some (t, es) ∧ es.length = n ∧ Inv t

/-- Nothing of a previous response is kept in the block (10_state.md section 5): what the output ports showed has no influence on a
step. That this holds of the ports after an idle or a reset step too rests on the model's choice that those steps quiet them
(DESIGN CHOICE, log 13). -/
def Obligations.PreviousResponseHasNoInfluence : Prop :=
  ∀ (s : State) (o : Output), step { s with out := o } = step s

/-- The two halves share no state (00_scope.md R2): an FSM command does what it does whatever the ring buffer holds, and a
ring-buffer command whatever `st` is. -/
def Obligations.HalvesDoNotInterfere : Prop :=
  (∀ (s : State) (i : Instr) (m : Memory) (w r : Nat), i ∈ fsmCommands →
    ∃ t, exec i s = .next t ∧
      exec i { s with mem := m, wr := w, rd := r } = .next { t with mem := m, wr := w, rd := r }) ∧
  (∀ (s t : State) (node : DecoderState) (b : Byte) (i : Instr), i ∈ [Instr.push b, .pop, .isempty, .clear] →
    exec i s = .next t → exec i { s with st := node } = .next { t with st := node })

/-- The frame of the FSM commands (40_decoder_fsm.md section 3): they write `st` and answer, nothing else; every slot keeps its byte. -/
def Obligations.FsmCommandsFrame : Prop :=
  ∀ (s t : State) (i : Instr), i ∈ fsmCommands → exec i s = .next t →
    t = { s with st := t.st, out := t.out } ∧ ∀ a, slotByte t a = slotByte s a

/-- The frame of the ring-buffer commands (41_ring_buffer.md R130, 20_memory.md R43): PUSH writes only the slot at the write cursor, and
the write cursor; POP only the read cursor; ISEMPTY nothing; CLEAR only the cursors; `st`, `mask`, `inh` stay as they are. -/
def Obligations.RingCommandsFrame : Prop :=
  ∀ s t : State,
    (∀ b : Byte, exec (.push b) s = .next t →
      t = { s with mem := t.mem, wr := t.wr, out := t.out } ∧
      ∀ a, a ≠ storeSlot s → slotByte t a = slotByte s a) ∧
    (exec .pop s = .next t → t = { s with rd := t.rd, out := t.out } ∧ ∀ a, slotByte t a = slotByte s a) ∧
    (exec .isempty s = .next t → t = { s with out := t.out } ∧ ∀ a, slotByte t a = slotByte s a) ∧
    (exec .clear s = .next t →
      t = { s with wr := t.wr, rd := t.rd, out := t.out } ∧ ∀ a, slotByte t a = slotByte s a)

/-- The frame of the arbitration commands (42_arbitration.md R151 to R153): CSENTER and CSEXIT write `mask`, IRET writes `inh`,
nothing else. -/
def Obligations.ArbitrationCommandsFrame : Prop :=
  ∀ (s t : State) (i : Instr), i ∈ arbitrationCommands → exec i s = .next t →
    t = { s with mask := t.mask, inh := t.inh, out := t.out } ∧ (i = .iret → t.mask = s.mask) ∧
    (i ≠ .iret → t.inh = s.inh) ∧ ∀ a, slotByte t a = slotByte s a

/-- The response word (30_encoding.md R66): the layout and codes of the five statuses, which command may answer which, the datum of
each, and that a grant step has no response word. -/
def Obligations.ResponseWordsByCommand : Prop :=
  (∀ d : Byte, responseWord (.ok d) = d.setWidth 11) ∧ responseWord .full = 0x100 ∧ responseWord .empty = 0x200 ∧
  responseWord .guard = 0x300 ∧ responseWord .illegal = 0x400 ∧
  (∀ (s : State) (w : CommandWord) (e : IllegalWord), choose s = .command w → decode w = .error e →
    ∃ t, step s = .next t ∧ (pins t).rw = some (responseWord .illegal)) ∧
  (∀ (s t : State) (i : Instr), exec i s = .next t →
    ∃ r, t.out = .response r ∧ (pins t).rw = some (responseWord r) ∧ r ≠ .illegal ∧
      (r = .full → ∃ b, i = .push b) ∧ (r = .empty → i = .pop) ∧
      (∀ d, r = .ok d →
        (i = .isempty → d = 0x01 ∧ s.wr = s.rd ∨ d = 0x00 ∧ s.wr ≠ s.rd) ∧
        (i = .pop → d = slotByte s s.rd) ∧ (∀ y, i = stepOf y → d = (transition s.st y).2) ∧
        (i ≠ .isempty → i ≠ .pop → (∀ y, i ≠ stepOf y) → d = 0x00))) ∧
  (∀ s : State, choose s = .grant → ∃ t, step s = .next t ∧ (pins t).rw = none ∧ (pins t).iack = 1)

/-- The outputs `st_q`, `mask_q`, `inh_q` show the state after the latest step (10_state.md R30). -/
def Obligations.PinsShowTheState : Prop :=
  ∀ s t : State, step s = .next t →
    (pins t).stQ = stateCode t.st ∧ ((pins t).maskQ = 1 ↔ t.mask = true) ∧ ((pins t).inhQ = 1 ↔ t.inh = true)

/-- The order of checks in a command step (30_encoding.md R70): the encoding first, then the guard, then the command's own rule; exactly
one status results, and an ILLEGAL or GUARD step changes nothing of the block. -/
def Obligations.ChecksRunInOrder : Prop :=
  ∀ (s : State) (w : CommandWord), choose s = .command w → arbitrationLegal s → CursorsInRange s →
    (∀ e, decode w = .error e → step s = .next { accepted s with out := .response .illegal }) ∧
    (∀ i, decode w = .ok i → guardTable i s.inh s.mask = false →
      step s = .next { accepted s with out := .response .guard }) ∧
    (∀ i, decode w = .ok i → guardTable i s.inh s.mask = true →
      ∃ t, step s = .next t ∧ ((∃ d, t.out = okOut d) ∨ t.out = .response .full ∨ t.out = .response .empty))

/-! ### The listing syntax and the surrounding software -/

/-- The pseudo-instructions (30_encoding.md R69). From (0, 0), `gpush b`, `gpop`, `gisempty` and `gclear` open a section, run `push b`,
`pop`, `isempty` and `clear` in it, and close it: the middle response is that command's own and never GUARD, and the state left is the
one that command leaves, with `mask` 0 again. `morse` keys one STEP per mark, left to right, in the foreground. -/
def Obligations.PseudoInstructionsAreGuarded : Prop :=
  (∀ (s : State) (b : Byte) (l : AsmLine) (i : Instr), s.inh = false → s.mask = false → CursorsInRange s →
    (l, i) ∈ [(AsmLine.gpush b, Instr.push b), (.gpop, .pop), (.gisempty, .isempty), (.gclear, .clear)] →
    ∃ u r, exec i { s with mask := true, out := okOut 0 } = .next u ∧ u.out = .response r ∧ r ≠ .guard ∧ r ≠ .illegal ∧
      runCommands (expand l) s = some ({ u with mask := false, out := okOut 0 }, [okOut 0, .response r, okOut 0]) ∧
      u.inh = false ∧ u.st = s.st) ∧
  (∀ (s : State) (marks : List Symbol), s.inh = false → (AsmLine.morse marks).wf = true →
    expand (.morse marks) = marks.map (fun y => if y = .dot then Instr.stepDot else .stepDash) ∧
    ∃ t, runCommands (expand (.morse marks)) s =
        some (t, (walkTable invalidNext digPrefixSpaceByte s.st marks).2.map okOut) ∧
      t = { s with st := (walkTable invalidNext digPrefixSpaceByte s.st marks).1, out := t.out })

/-- TimingClassifier (00_scope.md R12): Dot up to 3 ticks, Dash from 4 to 7, Space above 7. -/
def Obligations.ClassifierBoundaries : Prop :=
  ∀ ticks : Nat,
    (ticks ≤ 3 → classify ticks = .dot) ∧ (4 ≤ ticks → ticks ≤ 7 → classify ticks = .dash) ∧
    (7 < ticks → classify ticks = .space)

/-- A character keyed with marks and gaps of the right lengths comes back (00_scope.md R12 and R13 with 40_decoder_fsm.md section 4):
for marks of at most 3 ticks as Dots and longer ones as Dashes, closed by a gap above 3 ticks, DetectionLoop feeds the character's code
and a Space, and the table emits the character and ends at Start. -/
def Obligations.KeyedCharacterIsDecoded : Prop :=
  ∀ (c : Byte) (code : List Symbol) (ticks : List Nat) (gap : Nat), (c, code) ∈ codeTable →
    ticks.map (fun n => if n ≤ 3 then Symbol.dot else .dash) = code → 3 < gap →
    ∃ y, feedAfterGap gap = (some y, decide (7 < gap)) ∧
      (walkTable invalidNext digPrefixSpaceByte .start (ticks.map feedAfterMark ++ [y])).1 = .start ∧
      (walkTable invalidNext digPrefixSpaceByte .start (ticks.map feedAfterMark ++ [y])).2.filter (fun d => d != 0) = [c]

/-- The six elements are the complete state of the block (10_state.md section 1): from a state of the invariant, what a step does to
them, and the response of a command or a grant, depend on nothing but the six, the parameter and the inputs, neither on what the ports
showed nor on the model's own `resetCount` (log 7). -/
def Obligations.SixElementsAreTheWholeState : Prop :=
  ∀ s s' t : State, Inv s → s'.toBlock = s.toBlock → s'.k = s.k → s'.lines = s.lines → s'.fg = s.fg → s'.ih = s.ih →
    step s = .next t →
    ∃ t', step s' = .next t' ∧ t'.toBlock = t.toBlock ∧
      ((∃ w, choose s = .command w) ∨ choose s = .grant → t'.out = t.out)
end

