-- ==== Sys2Proof/Laws/Memory.lean ====
section
/-!
SUPPORT. The ring storage: a slot reads as what was last stored in it, a store leaves every other slot alone, every operation keeps
the canonical form, and what MemRead and MemWrite can answer.
-/

namespace Sys2Proof.Machine

theorem lookup_store_same (m : Memory) (i : Nat) (v : Byte) : Memory.lookup (Memory.store m i v) i = some v := by
  induction m with
  | nil => simp [Memory.store, Memory.lookup]
  | cons c m ih =>
    obtain ⟨a, w⟩ := c
    simp only [Memory.store]
    split
    · simp [Memory.lookup]
    · split
      · simp [Memory.lookup]
      · simp only [Memory.lookup]
        rw [if_neg (by omega), ih]

theorem lookup_store_other (m : Memory) (i j : Nat) (v : Byte) (h : j ≠ i) :
    Memory.lookup (Memory.store m i v) j = Memory.lookup m j := by
  induction m with
  | nil => simp [Memory.store, Memory.lookup, Ne.symm h]
  | cons c m ih =>
    obtain ⟨a, w⟩ := c
    simp only [Memory.store]
    split
    · simp [Memory.lookup, Ne.symm h]
    · split
      · rename_i h2
        subst h2
        simp [Memory.lookup, Ne.symm h]
      · simp only [Memory.lookup, ih]

/-- What a store does, said once. -/
theorem lookup_store (m : Memory) (i j : Nat) (v : Byte) :
    Memory.lookup (Memory.store m i v) j = if j = i then some v else Memory.lookup m j := by
  split
  · next h => rw [h, lookup_store_same]
  · next h => exact lookup_store_other m i j v h

/-- A store lists the slot stored to and the slots listed before. -/
theorem mem_store {m : Memory} {i : Nat} {v : Byte} {c : Host.Cell} (h : c ∈ Memory.store m i v) :
    c = (i, v) ∨ c ∈ m := by
  induction m with
  | nil => simpa [Memory.store] using h
  | cons d m ih =>
    obtain ⟨a, w⟩ := d
    simp only [Memory.store] at h
    split at h
    · simpa using h
    · split at h
      · rcases List.mem_cons.mp h with h | h <;> simp [h]
      · rcases List.mem_cons.mp h with h | h
        · simp [h]
        · rcases ih h with h | h <;> simp [h]

/-- A store keeps the canonical form. -/
theorem store_wf {m : Memory} (i : Nat) (v : Byte) (h : Memory.wf m) : Memory.wf (Memory.store m i v) := by
  induction m with
  | nil => simp [Memory.store, Memory.wf]
  | cons c m ih =>
    obtain ⟨a, w⟩ := c
    simp only [Memory.wf, List.map_cons, List.pairwise_cons, List.mem_map, forall_exists_index, and_imp,
      forall_apply_eq_imp_iff₂] at h
    simp only [Memory.store]
    split
    · next hi =>
      simp only [Memory.wf, List.map_cons, List.pairwise_cons, List.mem_cons, List.mem_map]
      refine ⟨?_, ?_, h.2⟩
      · rintro b (rfl | ⟨d, hd, rfl⟩)
        · exact hi
        · exact lt_trans hi (h.1 d hd)
      · rintro b ⟨d, hd, rfl⟩
        exact h.1 d hd
    · split
      · next hi =>
        subst hi
        simp only [Memory.wf, List.map_cons, List.pairwise_cons, List.mem_map]
        exact ⟨by rintro b ⟨d, hd, rfl⟩; exact h.1 d hd, h.2⟩
      · next hlt hne =>
        simp only [Memory.wf, List.map_cons, List.pairwise_cons, List.mem_map]
        refine ⟨?_, ih h.2⟩
        rintro b ⟨d, hd, rfl⟩
        rcases mem_store hd with rfl | hd
        · simp only; omega
        · exact h.1 d hd

/-- MemWrite keeps the canonical form. -/
theorem memWrite_wf {s t : State} {i : Nat} {v : Byte} (h : memWrite s i v = .ok t) (hw : Memory.wf s.mem) :
    Memory.wf t.mem := by
  unfold memWrite at h
  split at h
  · cases h; exact store_wf i v hw
  · cases h

/-- The memory after reset has the canonical form. -/
theorem reset_mem_wf : Memory.wf State.reset.mem := by simp [State.reset, State.resetWith, Memory.wf]

/-- A reset event leaves a memory of the canonical form. -/
theorem performReset_mem_wf (s : State) : Memory.wf (performReset s).mem := by simp [performReset, Memory.wf]

/-- All that MemRead can answer. -/
theorem memRead_cases (s : State) (i : Nat) :
    (i < slots s ∧ memRead s i = .ok (slotByte s i)) ∨ (slots s ≤ i ∧ memRead s i = .error .noSuchSlot) := by
  unfold memRead
  split
  · exact .inl ⟨‹_›, rfl⟩
  · exact .inr ⟨by omega, rfl⟩

/-- All that MemWrite can answer. -/
theorem memWrite_cases (s : State) (i : Nat) (v : Byte) :
    (i < slots s ∧ memWrite s i v = .ok { s with mem := Memory.store s.mem i v }) ∨
      (slots s ≤ i ∧ memWrite s i v = .error .noSuchSlot) := by
  unfold memWrite
  split
  · exact .inl ⟨‹_›, rfl⟩
  · exact .inr ⟨by omega, rfl⟩

/-- A slot's byte after a store. -/
theorem slotByte_store (s : State) (i j : Nat) (v : Byte) :
    slotByte { s with mem := Memory.store s.mem i v } j = if j = i then v else slotByte s j := by
  simp only [slotByte, lookup_store]
  split <;> simp

end Sys2Proof.Machine
end

