-- ==== Sys2Proof/Laws/State.lean ====
section
/-!
SUPPORT. One lemma for each field of State under each update, so that no later proof unfolds a record update; and what each update does
to the values computed from the fields.
-/

namespace Sys2Proof.Machine

/-! ### setSt -/

@[simp] theorem setSt_st (s : State) (new : DecoderState) : (setSt s new).st = new := rfl
@[simp] theorem setSt_mem (s : State) (new : DecoderState) : (setSt s new).mem = s.mem := rfl
@[simp] theorem setSt_wr (s : State) (new : DecoderState) : (setSt s new).wr = s.wr := rfl
@[simp] theorem setSt_rd (s : State) (new : DecoderState) : (setSt s new).rd = s.rd := rfl
@[simp] theorem setSt_mask (s : State) (new : DecoderState) : (setSt s new).mask = s.mask := rfl
@[simp] theorem setSt_inh (s : State) (new : DecoderState) : (setSt s new).inh = s.inh := rfl
@[simp] theorem setSt_k (s : State) (new : DecoderState) : (setSt s new).k = s.k := rfl
@[simp] theorem setSt_resetCount (s : State) (new : DecoderState) : (setSt s new).resetCount = s.resetCount := rfl
@[simp] theorem setSt_lines (s : State) (new : DecoderState) : (setSt s new).lines = s.lines := rfl
@[simp] theorem setSt_fg (s : State) (new : DecoderState) : (setSt s new).fg = s.fg := rfl
@[simp] theorem setSt_ih (s : State) (new : DecoderState) : (setSt s new).ih = s.ih := rfl
@[simp] theorem setSt_out (s : State) (new : DecoderState) : (setSt s new).out = s.out := rfl
@[simp] theorem setSt_slots (s : State) (new : DecoderState) : slots (setSt s new) = slots s := rfl
@[simp] theorem setSt_slotByte (s : State) (new : DecoderState) (i : Nat) : slotByte (setSt s new) i = slotByte s i := rfl
@[simp] theorem setSt_occupancy (s : State) (new : DecoderState) : occupancy (setSt s new) = occupancy s := rfl
@[simp] theorem setSt_isEmpty (s : State) (new : DecoderState) : isEmpty (setSt s new) = isEmpty s := rfl
@[simp] theorem setSt_isFull (s : State) (new : DecoderState) : isFull (setSt s new) = isFull s := rfl

/-! ### setWr -/

@[simp] theorem setWr_st (s : State) (c : Nat) : (setWr s c).st = s.st := rfl
@[simp] theorem setWr_mem (s : State) (c : Nat) : (setWr s c).mem = s.mem := rfl
@[simp] theorem setWr_wr (s : State) (c : Nat) : (setWr s c).wr = c := rfl
@[simp] theorem setWr_rd (s : State) (c : Nat) : (setWr s c).rd = s.rd := rfl
@[simp] theorem setWr_mask (s : State) (c : Nat) : (setWr s c).mask = s.mask := rfl
@[simp] theorem setWr_inh (s : State) (c : Nat) : (setWr s c).inh = s.inh := rfl
@[simp] theorem setWr_k (s : State) (c : Nat) : (setWr s c).k = s.k := rfl
@[simp] theorem setWr_resetCount (s : State) (c : Nat) : (setWr s c).resetCount = s.resetCount := rfl
@[simp] theorem setWr_lines (s : State) (c : Nat) : (setWr s c).lines = s.lines := rfl
@[simp] theorem setWr_fg (s : State) (c : Nat) : (setWr s c).fg = s.fg := rfl
@[simp] theorem setWr_ih (s : State) (c : Nat) : (setWr s c).ih = s.ih := rfl
@[simp] theorem setWr_out (s : State) (c : Nat) : (setWr s c).out = s.out := rfl
@[simp] theorem setWr_slots (s : State) (c : Nat) : slots (setWr s c) = slots s := rfl
@[simp] theorem setWr_slotByte (s : State) (c : Nat) (i : Nat) : slotByte (setWr s c) i = slotByte s i := rfl

/-! ### setRd -/

@[simp] theorem setRd_st (s : State) (c : Nat) : (setRd s c).st = s.st := rfl
@[simp] theorem setRd_mem (s : State) (c : Nat) : (setRd s c).mem = s.mem := rfl
@[simp] theorem setRd_wr (s : State) (c : Nat) : (setRd s c).wr = s.wr := rfl
@[simp] theorem setRd_rd (s : State) (c : Nat) : (setRd s c).rd = c := rfl
@[simp] theorem setRd_mask (s : State) (c : Nat) : (setRd s c).mask = s.mask := rfl
@[simp] theorem setRd_inh (s : State) (c : Nat) : (setRd s c).inh = s.inh := rfl
@[simp] theorem setRd_k (s : State) (c : Nat) : (setRd s c).k = s.k := rfl
@[simp] theorem setRd_resetCount (s : State) (c : Nat) : (setRd s c).resetCount = s.resetCount := rfl
@[simp] theorem setRd_lines (s : State) (c : Nat) : (setRd s c).lines = s.lines := rfl
@[simp] theorem setRd_fg (s : State) (c : Nat) : (setRd s c).fg = s.fg := rfl
@[simp] theorem setRd_ih (s : State) (c : Nat) : (setRd s c).ih = s.ih := rfl
@[simp] theorem setRd_out (s : State) (c : Nat) : (setRd s c).out = s.out := rfl
@[simp] theorem setRd_slots (s : State) (c : Nat) : slots (setRd s c) = slots s := rfl
@[simp] theorem setRd_slotByte (s : State) (c : Nat) (i : Nat) : slotByte (setRd s c) i = slotByte s i := rfl

/-! ### setMask -/

@[simp] theorem setMask_st (s : State) (b : Bool) : (setMask s b).st = s.st := rfl
@[simp] theorem setMask_mem (s : State) (b : Bool) : (setMask s b).mem = s.mem := rfl
@[simp] theorem setMask_wr (s : State) (b : Bool) : (setMask s b).wr = s.wr := rfl
@[simp] theorem setMask_rd (s : State) (b : Bool) : (setMask s b).rd = s.rd := rfl
@[simp] theorem setMask_mask (s : State) (b : Bool) : (setMask s b).mask = b := rfl
@[simp] theorem setMask_inh (s : State) (b : Bool) : (setMask s b).inh = s.inh := rfl
@[simp] theorem setMask_k (s : State) (b : Bool) : (setMask s b).k = s.k := rfl
@[simp] theorem setMask_resetCount (s : State) (b : Bool) : (setMask s b).resetCount = s.resetCount := rfl
@[simp] theorem setMask_lines (s : State) (b : Bool) : (setMask s b).lines = s.lines := rfl
@[simp] theorem setMask_fg (s : State) (b : Bool) : (setMask s b).fg = s.fg := rfl
@[simp] theorem setMask_ih (s : State) (b : Bool) : (setMask s b).ih = s.ih := rfl
@[simp] theorem setMask_out (s : State) (b : Bool) : (setMask s b).out = s.out := rfl
@[simp] theorem setMask_slots (s : State) (b : Bool) : slots (setMask s b) = slots s := rfl
@[simp] theorem setMask_slotByte (s : State) (b : Bool) (i : Nat) : slotByte (setMask s b) i = slotByte s i := rfl
@[simp] theorem setMask_occupancy (s : State) (b : Bool) : occupancy (setMask s b) = occupancy s := rfl
@[simp] theorem setMask_isEmpty (s : State) (b : Bool) : isEmpty (setMask s b) = isEmpty s := rfl
@[simp] theorem setMask_isFull (s : State) (b : Bool) : isFull (setMask s b) = isFull s := rfl

/-! ### respond -/

@[simp] theorem respond_st (s : State) (r : Response) : (respond s r).st = s.st := rfl
@[simp] theorem respond_mem (s : State) (r : Response) : (respond s r).mem = s.mem := rfl
@[simp] theorem respond_wr (s : State) (r : Response) : (respond s r).wr = s.wr := rfl
@[simp] theorem respond_rd (s : State) (r : Response) : (respond s r).rd = s.rd := rfl
@[simp] theorem respond_mask (s : State) (r : Response) : (respond s r).mask = s.mask := rfl
@[simp] theorem respond_inh (s : State) (r : Response) : (respond s r).inh = s.inh := rfl
@[simp] theorem respond_k (s : State) (r : Response) : (respond s r).k = s.k := rfl
@[simp] theorem respond_resetCount (s : State) (r : Response) : (respond s r).resetCount = s.resetCount := rfl
@[simp] theorem respond_lines (s : State) (r : Response) : (respond s r).lines = s.lines := rfl
@[simp] theorem respond_fg (s : State) (r : Response) : (respond s r).fg = s.fg := rfl
@[simp] theorem respond_ih (s : State) (r : Response) : (respond s r).ih = s.ih := rfl
@[simp] theorem respond_out (s : State) (r : Response) : (respond s r).out = .response r := rfl
@[simp] theorem respond_slots (s : State) (r : Response) : slots (respond s r) = slots s := rfl
@[simp] theorem respond_slotByte (s : State) (r : Response) (i : Nat) : slotByte (respond s r) i = slotByte s i := rfl
@[simp] theorem respond_occupancy (s : State) (r : Response) : occupancy (respond s r) = occupancy s := rfl
@[simp] theorem respond_isEmpty (s : State) (r : Response) : isEmpty (respond s r) = isEmpty s := rfl
@[simp] theorem respond_isFull (s : State) (r : Response) : isFull (respond s r) = isFull s := rfl

/-! ### takeGrant -/

@[simp] theorem takeGrant_st (s : State) : (takeGrant s).st = s.st := rfl
@[simp] theorem takeGrant_mem (s : State) : (takeGrant s).mem = s.mem := rfl
@[simp] theorem takeGrant_wr (s : State) : (takeGrant s).wr = s.wr := rfl
@[simp] theorem takeGrant_rd (s : State) : (takeGrant s).rd = s.rd := rfl
@[simp] theorem takeGrant_mask (s : State) : (takeGrant s).mask = s.mask := rfl
@[simp] theorem takeGrant_inh (s : State) : (takeGrant s).inh = true := rfl
@[simp] theorem takeGrant_k (s : State) : (takeGrant s).k = s.k := rfl
@[simp] theorem takeGrant_resetCount (s : State) : (takeGrant s).resetCount = s.resetCount := rfl
@[simp] theorem takeGrant_lines (s : State) : (takeGrant s).lines = s.lines := rfl
@[simp] theorem takeGrant_fg (s : State) : (takeGrant s).fg = s.fg := rfl
@[simp] theorem takeGrant_ih (s : State) : (takeGrant s).ih = s.ih := rfl
@[simp] theorem takeGrant_out (s : State) : (takeGrant s).out = .grantAck := rfl
@[simp] theorem takeGrant_slots (s : State) : slots (takeGrant s) = slots s := rfl
@[simp] theorem takeGrant_slotByte (s : State) (i : Nat) : slotByte (takeGrant s) i = slotByte s i := rfl
@[simp] theorem takeGrant_occupancy (s : State) : occupancy (takeGrant s) = occupancy s := rfl
@[simp] theorem takeGrant_isEmpty (s : State) : isEmpty (takeGrant s) = isEmpty s := rfl
@[simp] theorem takeGrant_isFull (s : State) : isFull (takeGrant s) = isFull s := rfl

/-! ### returnFromHandler -/

@[simp] theorem returnFromHandler_st (s : State) : (returnFromHandler s).st = s.st := rfl
@[simp] theorem returnFromHandler_mem (s : State) : (returnFromHandler s).mem = s.mem := rfl
@[simp] theorem returnFromHandler_wr (s : State) : (returnFromHandler s).wr = s.wr := rfl
@[simp] theorem returnFromHandler_rd (s : State) : (returnFromHandler s).rd = s.rd := rfl
@[simp] theorem returnFromHandler_mask (s : State) : (returnFromHandler s).mask = s.mask := rfl
@[simp] theorem returnFromHandler_inh (s : State) : (returnFromHandler s).inh = false := rfl
@[simp] theorem returnFromHandler_k (s : State) : (returnFromHandler s).k = s.k := rfl
@[simp] theorem returnFromHandler_resetCount (s : State) : (returnFromHandler s).resetCount = s.resetCount := rfl
@[simp] theorem returnFromHandler_lines (s : State) : (returnFromHandler s).lines = s.lines := rfl
@[simp] theorem returnFromHandler_fg (s : State) : (returnFromHandler s).fg = s.fg := rfl
@[simp] theorem returnFromHandler_ih (s : State) : (returnFromHandler s).ih = s.ih := rfl
@[simp] theorem returnFromHandler_out (s : State) : (returnFromHandler s).out = s.out := rfl
@[simp] theorem returnFromHandler_slots (s : State) : slots (returnFromHandler s) = slots s := rfl
@[simp] theorem returnFromHandler_slotByte (s : State) (i : Nat) : slotByte (returnFromHandler s) i = slotByte s i := rfl
@[simp] theorem returnFromHandler_occupancy (s : State) : occupancy (returnFromHandler s) = occupancy s := rfl
@[simp] theorem returnFromHandler_isEmpty (s : State) : isEmpty (returnFromHandler s) = isEmpty s := rfl
@[simp] theorem returnFromHandler_isFull (s : State) : isFull (returnFromHandler s) = isFull s := rfl

/-! ### performReset -/

@[simp] theorem performReset_st (s : State) : (performReset s).st = .start := rfl
@[simp] theorem performReset_mem (s : State) : (performReset s).mem = [] := rfl
@[simp] theorem performReset_wr (s : State) : (performReset s).wr = 0 := rfl
@[simp] theorem performReset_rd (s : State) : (performReset s).rd = 0 := rfl
@[simp] theorem performReset_mask (s : State) : (performReset s).mask = false := rfl
@[simp] theorem performReset_inh (s : State) : (performReset s).inh = false := rfl
@[simp] theorem performReset_k (s : State) : (performReset s).k = s.k := rfl
@[simp] theorem performReset_resetCount (s : State) : (performReset s).resetCount = s.resetCount + 1 := rfl
@[simp] theorem performReset_lines (s : State) : (performReset s).lines = s.lines := rfl
@[simp] theorem performReset_fg (s : State) : (performReset s).fg = s.fg := rfl
@[simp] theorem performReset_ih (s : State) : (performReset s).ih = s.ih := rfl
@[simp] theorem performReset_out (s : State) : (performReset s).out = .quiet := rfl
@[simp] theorem performReset_slots (s : State) : slots (performReset s) = slots s := rfl

/-! ### idle -/

@[simp] theorem idle_st (s : State) : (idle s).st = s.st := rfl
@[simp] theorem idle_mem (s : State) : (idle s).mem = s.mem := rfl
@[simp] theorem idle_wr (s : State) : (idle s).wr = s.wr := rfl
@[simp] theorem idle_rd (s : State) : (idle s).rd = s.rd := rfl
@[simp] theorem idle_mask (s : State) : (idle s).mask = s.mask := rfl
@[simp] theorem idle_inh (s : State) : (idle s).inh = s.inh := rfl
@[simp] theorem idle_k (s : State) : (idle s).k = s.k := rfl
@[simp] theorem idle_resetCount (s : State) : (idle s).resetCount = s.resetCount := rfl
@[simp] theorem idle_lines (s : State) : (idle s).lines = s.lines := rfl
@[simp] theorem idle_fg (s : State) : (idle s).fg = s.fg := rfl
@[simp] theorem idle_ih (s : State) : (idle s).ih = s.ih := rfl
@[simp] theorem idle_out (s : State) : (idle s).out = .quiet := rfl
@[simp] theorem idle_slots (s : State) : slots (idle s) = slots s := rfl
@[simp] theorem idle_slotByte (s : State) (i : Nat) : slotByte (idle s) i = slotByte s i := rfl
@[simp] theorem idle_occupancy (s : State) : occupancy (idle s) = occupancy s := rfl
@[simp] theorem idle_isEmpty (s : State) : isEmpty (idle s) = isEmpty s := rfl
@[simp] theorem idle_isFull (s : State) : isFull (idle s) = isFull s := rfl

/-! ### passLines -/

@[simp] theorem passLines_st (s : State) : (passLines s).st = s.st := rfl
@[simp] theorem passLines_mem (s : State) : (passLines s).mem = s.mem := rfl
@[simp] theorem passLines_wr (s : State) : (passLines s).wr = s.wr := rfl
@[simp] theorem passLines_rd (s : State) : (passLines s).rd = s.rd := rfl
@[simp] theorem passLines_mask (s : State) : (passLines s).mask = s.mask := rfl
@[simp] theorem passLines_inh (s : State) : (passLines s).inh = s.inh := rfl
@[simp] theorem passLines_k (s : State) : (passLines s).k = s.k := rfl
@[simp] theorem passLines_resetCount (s : State) : (passLines s).resetCount = s.resetCount := rfl
@[simp] theorem passLines_lines (s : State) : (passLines s).lines = s.lines.tail := rfl
@[simp] theorem passLines_fg (s : State) : (passLines s).fg = s.fg := rfl
@[simp] theorem passLines_ih (s : State) : (passLines s).ih = s.ih := rfl
@[simp] theorem passLines_out (s : State) : (passLines s).out = s.out := rfl
@[simp] theorem passLines_slots (s : State) : slots (passLines s) = slots s := rfl
@[simp] theorem passLines_slotByte (s : State) (i : Nat) : slotByte (passLines s) i = slotByte s i := rfl
@[simp] theorem passLines_occupancy (s : State) : occupancy (passLines s) = occupancy s := rfl
@[simp] theorem passLines_isEmpty (s : State) : isEmpty (passLines s) = isEmpty s := rfl
@[simp] theorem passLines_isFull (s : State) : isFull (passLines s) = isFull s := rfl

/-! ### feedSymbol -/

@[simp] theorem feedSymbol_st (s : State) (y : Symbol) : (feedSymbol s y).st = (transition s.st y).1 := rfl
@[simp] theorem feedSymbol_mem (s : State) (y : Symbol) : (feedSymbol s y).mem = s.mem := rfl
@[simp] theorem feedSymbol_wr (s : State) (y : Symbol) : (feedSymbol s y).wr = s.wr := rfl
@[simp] theorem feedSymbol_rd (s : State) (y : Symbol) : (feedSymbol s y).rd = s.rd := rfl
@[simp] theorem feedSymbol_mask (s : State) (y : Symbol) : (feedSymbol s y).mask = s.mask := rfl
@[simp] theorem feedSymbol_inh (s : State) (y : Symbol) : (feedSymbol s y).inh = s.inh := rfl
@[simp] theorem feedSymbol_k (s : State) (y : Symbol) : (feedSymbol s y).k = s.k := rfl
@[simp] theorem feedSymbol_resetCount (s : State) (y : Symbol) : (feedSymbol s y).resetCount = s.resetCount := rfl
@[simp] theorem feedSymbol_lines (s : State) (y : Symbol) : (feedSymbol s y).lines = s.lines := rfl
@[simp] theorem feedSymbol_fg (s : State) (y : Symbol) : (feedSymbol s y).fg = s.fg := rfl
@[simp] theorem feedSymbol_ih (s : State) (y : Symbol) : (feedSymbol s y).ih = s.ih := rfl
@[simp] theorem feedSymbol_out (s : State) (y : Symbol) : (feedSymbol s y).out = .response (.ok (transition s.st y).2) := rfl
@[simp] theorem feedSymbol_slots (s : State) (y : Symbol) : slots (feedSymbol s y) = slots s := rfl
@[simp] theorem feedSymbol_slotByte (s : State) (y : Symbol) (i : Nat) : slotByte (feedSymbol s y) i = slotByte s i := rfl
@[simp] theorem feedSymbol_occupancy (s : State) (y : Symbol) : occupancy (feedSymbol s y) = occupancy s := rfl
@[simp] theorem feedSymbol_isEmpty (s : State) (y : Symbol) : isEmpty (feedSymbol s y) = isEmpty s := rfl
@[simp] theorem feedSymbol_isFull (s : State) (y : Symbol) : isFull (feedSymbol s y) = isFull s := rfl

/-! ### refuseIllegal -/

@[simp] theorem refuseIllegal_st (s : State) : (refuseIllegal s).st = s.st := rfl
@[simp] theorem refuseIllegal_mem (s : State) : (refuseIllegal s).mem = s.mem := rfl
@[simp] theorem refuseIllegal_wr (s : State) : (refuseIllegal s).wr = s.wr := rfl
@[simp] theorem refuseIllegal_rd (s : State) : (refuseIllegal s).rd = s.rd := rfl
@[simp] theorem refuseIllegal_mask (s : State) : (refuseIllegal s).mask = s.mask := rfl
@[simp] theorem refuseIllegal_inh (s : State) : (refuseIllegal s).inh = s.inh := rfl
@[simp] theorem refuseIllegal_k (s : State) : (refuseIllegal s).k = s.k := rfl
@[simp] theorem refuseIllegal_resetCount (s : State) : (refuseIllegal s).resetCount = s.resetCount := rfl
@[simp] theorem refuseIllegal_lines (s : State) : (refuseIllegal s).lines = s.lines := rfl
@[simp] theorem refuseIllegal_fg (s : State) : (refuseIllegal s).fg = s.fg := rfl
@[simp] theorem refuseIllegal_ih (s : State) : (refuseIllegal s).ih = s.ih := rfl
@[simp] theorem refuseIllegal_out (s : State) : (refuseIllegal s).out = .response .illegal := rfl
@[simp] theorem refuseIllegal_slots (s : State) : slots (refuseIllegal s) = slots s := rfl
@[simp] theorem refuseIllegal_slotByte (s : State) (i : Nat) : slotByte (refuseIllegal s) i = slotByte s i := rfl
@[simp] theorem refuseIllegal_occupancy (s : State) : occupancy (refuseIllegal s) = occupancy s := rfl
@[simp] theorem refuseIllegal_isEmpty (s : State) : isEmpty (refuseIllegal s) = isEmpty s := rfl
@[simp] theorem refuseIllegal_isFull (s : State) : isFull (refuseIllegal s) = isFull s := rfl

/-! ### acceptWord and accepted -/

@[simp] theorem acceptWord_st (s : State) : (acceptWord s).st = s.st := by unfold acceptWord; split <;> rfl
@[simp] theorem acceptWord_mem (s : State) : (acceptWord s).mem = s.mem := by unfold acceptWord; split <;> rfl
@[simp] theorem acceptWord_wr (s : State) : (acceptWord s).wr = s.wr := by unfold acceptWord; split <;> rfl
@[simp] theorem acceptWord_rd (s : State) : (acceptWord s).rd = s.rd := by unfold acceptWord; split <;> rfl
@[simp] theorem acceptWord_mask (s : State) : (acceptWord s).mask = s.mask := by unfold acceptWord; split <;> rfl
@[simp] theorem acceptWord_inh (s : State) : (acceptWord s).inh = s.inh := by unfold acceptWord; split <;> rfl
@[simp] theorem acceptWord_k (s : State) : (acceptWord s).k = s.k := by unfold acceptWord; split <;> rfl
@[simp] theorem acceptWord_resetCount (s : State) : (acceptWord s).resetCount = s.resetCount := by unfold acceptWord; split <;> rfl
@[simp] theorem acceptWord_lines (s : State) : (acceptWord s).lines = s.lines := by unfold acceptWord; split <;> rfl
@[simp] theorem acceptWord_out (s : State) : (acceptWord s).out = s.out := by unfold acceptWord; split <;> rfl
theorem acceptWord_fg (s : State) : (acceptWord s).fg = if s.inh then s.fg else s.fg.tail := by unfold acceptWord; split <;> rfl
theorem acceptWord_ih (s : State) : (acceptWord s).ih = if s.inh then s.ih.tail else s.ih := by unfold acceptWord; split <;> rfl
@[simp] theorem accepted_st (s : State) : (accepted s).st = s.st := by simp [accepted]
@[simp] theorem accepted_mem (s : State) : (accepted s).mem = s.mem := by simp [accepted]
@[simp] theorem accepted_wr (s : State) : (accepted s).wr = s.wr := by simp [accepted]
@[simp] theorem accepted_rd (s : State) : (accepted s).rd = s.rd := by simp [accepted]
@[simp] theorem accepted_mask (s : State) : (accepted s).mask = s.mask := by simp [accepted]
@[simp] theorem accepted_inh (s : State) : (accepted s).inh = s.inh := by simp [accepted]
@[simp] theorem accepted_k (s : State) : (accepted s).k = s.k := by simp [accepted]
@[simp] theorem accepted_resetCount (s : State) : (accepted s).resetCount = s.resetCount := by simp [accepted]
@[simp] theorem accepted_lines (s : State) : (accepted s).lines = s.lines.tail := by simp [accepted]
@[simp] theorem accepted_out (s : State) : (accepted s).out = s.out := by simp [accepted]
theorem accepted_fg (s : State) : (accepted s).fg = if s.inh then s.fg else s.fg.tail := by unfold accepted; rw [acceptWord_fg]; rfl
theorem accepted_ih (s : State) : (accepted s).ih = if s.inh then s.ih.tail else s.ih := by unfold accepted; rw [acceptWord_ih]; rfl
@[simp] theorem accepted_slots (s : State) : slots (accepted s) = slots s := by simp [slots]
@[simp] theorem accepted_slotByte (s : State) (i : Nat) : slotByte (accepted s) i = slotByte s i := by simp [slotByte]
@[simp] theorem accepted_occupancy (s : State) : occupancy (accepted s) = occupancy s := by simp [occupancy]
@[simp] theorem accepted_isEmpty (s : State) : isEmpty (accepted s) = isEmpty s := by simp [isEmpty]
@[simp] theorem accepted_isFull (s : State) : isFull (accepted s) = isFull s := by simp [isFull, nextCursor]

/-! ### The six elements as one: updates of the ports leave them, and every reset sets them alike -/

@[simp] theorem respond_toBlock (s : State) (r : Response) : (respond s r).toBlock = s.toBlock := rfl
@[simp] theorem refuseIllegal_toBlock (s : State) : (refuseIllegal s).toBlock = s.toBlock := rfl
@[simp] theorem idle_toBlock (s : State) : (idle s).toBlock = s.toBlock := rfl
@[simp] theorem passLines_toBlock (s : State) : (passLines s).toBlock = s.toBlock := rfl
@[simp] theorem acceptWord_toBlock (s : State) : (acceptWord s).toBlock = s.toBlock := by unfold acceptWord; split <;> rfl
@[simp] theorem accepted_toBlock (s : State) : (accepted s).toBlock = s.toBlock := by simp [accepted]
@[simp] theorem takeGrant_toBlock (s : State) : (takeGrant s).toBlock = { s.toBlock with inh := true } := rfl
theorem performReset_toBlock (s : State) (k : Nat) : (performReset s).toBlock = (State.resetWith k).toBlock := rfl

/-! ### The reset state -/

@[simp] theorem resetWith_st (k : Nat) : (State.resetWith k).st = .start := rfl
@[simp] theorem resetWith_mem (k : Nat) : (State.resetWith k).mem = [] := rfl
@[simp] theorem resetWith_wr (k : Nat) : (State.resetWith k).wr = 0 := rfl
@[simp] theorem resetWith_rd (k : Nat) : (State.resetWith k).rd = 0 := rfl
@[simp] theorem resetWith_mask (k : Nat) : (State.resetWith k).mask = false := rfl
@[simp] theorem resetWith_inh (k : Nat) : (State.resetWith k).inh = false := rfl
@[simp] theorem resetWith_k (k : Nat) : (State.resetWith k).k = k := rfl
@[simp] theorem resetWith_resetCount (k : Nat) : (State.resetWith k).resetCount = 0 := rfl
@[simp] theorem resetWith_lines (k : Nat) : (State.resetWith k).lines = [] := rfl
@[simp] theorem resetWith_fg (k : Nat) : (State.resetWith k).fg = [] := rfl
@[simp] theorem resetWith_ih (k : Nat) : (State.resetWith k).ih = [] := rfl
@[simp] theorem resetWith_out (k : Nat) : (State.resetWith k).out = .quiet := rfl

end Sys2Proof.Machine
end

