-- ==== Sys2Proof/Laws/Exec.lean ====
section
/-!
SUPPORT. For each shared operation, one lemma that says once everything it can do: the guard, PUSH's and POP's own rules, the choice
of the next step, and the step.
-/

namespace Sys2Proof.Machine

theorem guarded_admitted {c : CommandClass} {s : State} (body : Host.Outcome State Fault Refusal)
    (h : admits c s.inh s.mask = true) : guarded c s body = body := by simp [guarded, h]

theorem guarded_not_admitted {c : CommandClass} {s : State} (body : Host.Outcome State Fault Refusal)
    (h : admits c s.inh s.mask = false) : guarded c s body = .next (respond s .guard) := by simp [guarded, h]

/-- All that a command behind the guard can do. -/
theorem guarded_next {c : CommandClass} {s t : State} {body : Host.Outcome State Fault Refusal}
    (h : guarded c s body = .next t) :
    (admits c s.inh s.mask = true ∧ body = .next t) ∨ (admits c s.inh s.mask = false ∧ t = respond s .guard) := by
  unfold guarded at h
  split at h
  · exact .inl ⟨‹_›, h⟩
  · cases h; exact .inr ⟨eq_false_of_ne_true ‹_›, rfl⟩

/-- All that PUSH's own rule can do. -/
theorem pushByte_cases (s : State) (b : Byte) :
    (isFull s = true ∧ pushByte s b = .next (respond s .full)) ∨
    (isFull s = false ∧ s.wr < slots s ∧ pushByte s b = .next (respond
      (setWr { s with mem := Memory.store s.mem (storeSlot s) b } (nextCursor s s.wr)) (.ok 0x00))) ∨
    (isFull s = false ∧ slots s ≤ s.wr ∧ pushByte s b = .fault .noSuchSlot) := by
  unfold pushByte
  split
  · exact .inl ⟨‹_›, rfl⟩
  · have hf : isFull s = false := eq_false_of_ne_true ‹_›
    rcases memWrite_cases s (storeSlot s) b with ⟨hlt, he⟩ | ⟨hle, he⟩
    · exact .inr (.inl ⟨hf, hlt, by rw [he]⟩)
    · exact .inr (.inr ⟨hf, hle, by rw [he]⟩)

/-- All that POP's own rule can do. -/
theorem popByte_cases (s : State) :
    (isEmpty s = true ∧ popByte s = .next (respond s .empty)) ∨
    (isEmpty s = false ∧ s.rd < slots s ∧
      popByte s = .next (respond (setRd s (nextCursor s s.rd)) (.ok (slotByte s (loadSlot s))))) ∨
    (isEmpty s = false ∧ slots s ≤ s.rd ∧ popByte s = .fault .noSuchSlot) := by
  unfold popByte
  split
  · exact .inl ⟨‹_›, rfl⟩
  · have hf : isEmpty s = false := eq_false_of_ne_true ‹_›
    rcases memRead_cases s (loadSlot s) with ⟨hlt, he⟩ | ⟨hle, he⟩
    · exact .inr (.inl ⟨hf, hlt, by rw [he]⟩)
    · exact .inr (.inr ⟨hf, hle, by rw [he]⟩)

theorem isEmpty_iff (s : State) : isEmpty s = true ↔ s.wr = s.rd := by simp [isEmpty]

theorem isFull_iff (s : State) : isFull s = true ↔ (s.wr + 1) % 2 ^ s.k = s.rd := by
  simp [isFull, nextCursor, slots]

/-- The choice of the next step, said once. -/
theorem choose_cases (s : State) :
    ((currentLines s).rst = true ∧ choose s = .reset) ∨
    ((currentLines s).rst = false ∧ (currentLines s).irq = true ∧ s.mask = false ∧ s.inh = false ∧ choose s = .grant) ∨
    ((currentLines s).rst = false ∧ ((currentLines s).irq = false ∨ s.mask = true ∨ s.inh = true) ∧
      ((∃ w, presented s = some w ∧ choose s = .command w) ∨ (presented s = none ∧ choose s = .idle))) := by
  unfold choose
  cases hr : (currentLines s).rst
  · cases hi : (currentLines s).irq <;> cases hm : s.mask <;> cases hh : s.inh <;>
      cases hp : presented s <;> simp
  · simp

/-- All that a step can do. -/
theorem step_cases (s : State) :
    (choose s = .reset ∧ step s = .next (performReset (passLines s))) ∨
    (choose s = .grant ∧ step s = .next (takeGrant (passLines s))) ∨
    (∃ w i, choose s = .command w ∧ decode w = .ok i ∧ step s = exec i (accepted s)) ∨
    (∃ w e, choose s = .command w ∧ decode w = .error e ∧ step s = .next (refuseIllegal (accepted s))) ∨
    (choose s = .idle ∧ step s = .next (idle (passLines s))) := by
  unfold step
  cases hc : choose s with
  | reset => simp
  | grant => simp
  | idle => simp
  | command w =>
    cases hd : decode w with
    | ok i => exact .inr (.inr (.inl ⟨w, i, rfl, hd, by simp [execWord, hd]⟩))
    | error e => exact .inr (.inr (.inr (.inl ⟨w, e, rfl, hd, by simp [execWord, hd]⟩)))

/-- A step of the trace, taken apart. -/
theorem trace_succ {n : Nat} {s u : State} {es : List Event} (h : trace (n + 1) s = some (u, es)) :
    ∃ t es', step s = .next t ∧ trace n t = some (u, es') ∧ es = eventOf s t :: es' := by
  unfold trace at h
  split at h
  · next t ht =>
    cases hr : trace n t with
    | none => rw [hr] at h; cases h
    | some r =>
      rw [hr] at h
      simp only [Option.map_some, Option.some.injEq, Prod.mk.injEq] at h
      exact ⟨t, r.2, ht, by rw [hr, ← h.1], h.2.symm⟩
  · cases h
  · cases h

/-- A command of a run, taken apart. -/
theorem runCommands_cons {i : Instr} {is : List Instr} {s t : State} (h : exec i s = .next t) :
    runCommands (i :: is) s = (runCommands is t).map (fun r => (r.1, t.out :: r.2)) := by
  simp [runCommands, h]

end Sys2Proof.Machine
end

