-- ==== Sys2Proof/Laws/PerInstr.lean ====
section
/-!
SUPPORT. The family of statements about commands as syntax: a command's word is legal by the clauses of 30_encoding.md R67 and selects
the command's own row of the opcode map.
-/

namespace Sys2Proof.Laws

/-- The word of `i` is legal and selects the row of `i` (30_encoding.md R62, R67). -/
def EncodesToOwnRow.Statement (i : Instr) : Prop :=
  legalWord (encode i) = true ∧ (rowOf i).selects (encode i) = true ∧ rowOf i ∈ opcodeRows

theorem EncodesToOwnRow.stepDot : EncodesToOwnRow.Statement .stepDot := by unfold EncodesToOwnRow.Statement; decide

theorem EncodesToOwnRow.stepDash : EncodesToOwnRow.Statement .stepDash := by unfold EncodesToOwnRow.Statement; decide

theorem EncodesToOwnRow.stepSpace : EncodesToOwnRow.Statement .stepSpace := by unfold EncodesToOwnRow.Statement; decide

theorem EncodesToOwnRow.flush : EncodesToOwnRow.Statement .flush := by unfold EncodesToOwnRow.Statement; decide

/-- PUSH's word is `0x400 + b`. -/
theorem encode_push_toNat (b : Byte) : (encode (.push b)).toNat = 0x400 + b.toNat := by
  have hb := b.isLt
  simp only [encode, wordOf, BitVec.toNat_append]
  rw [← Nat.shiftLeft_add_eq_or_of_lt hb]
  simp [Nat.shiftLeft_eq]

theorem EncodesToOwnRow.push (b : Byte) : EncodesToOwnRow.Statement (.push b) := by
  have hb := b.isLt
  refine ⟨?_, ?_, (by decide : rowOf (.push 0) ∈ opcodeRows)⟩
  · have h1 : (0x400 + b.toNat) / 256 = 4 := by omega
    simp [legalWord, encode_push_toNat, h1]
  · simp only [OpcodeRow.selects, rowOf, beq_iff_eq, encode, wordOf]
    ext i hi
    simp only [BitVec.getElem_and, BitVec.getElem_append]
    interval_cases i <;> simp

theorem EncodesToOwnRow.pop : EncodesToOwnRow.Statement .pop := by unfold EncodesToOwnRow.Statement; decide

theorem EncodesToOwnRow.isempty : EncodesToOwnRow.Statement .isempty := by unfold EncodesToOwnRow.Statement; decide

theorem EncodesToOwnRow.clear : EncodesToOwnRow.Statement .clear := by unfold EncodesToOwnRow.Statement; decide

theorem EncodesToOwnRow.csenter : EncodesToOwnRow.Statement .csenter := by unfold EncodesToOwnRow.Statement; decide

theorem EncodesToOwnRow.csexit : EncodesToOwnRow.Statement .csexit := by unfold EncodesToOwnRow.Statement; decide

theorem EncodesToOwnRow.iret : EncodesToOwnRow.Statement .iret := by unfold EncodesToOwnRow.Statement; decide

end Sys2Proof.Laws
end

