-- ==== Sys2Proof/Tests/Slice0.lean ====
section
/-!
SUPPORT. Tests on values of the spec's own tables and worked examples, and for every statement with hypotheses a concrete input that
meets them.
-/

namespace Sys2Proof.Tests

open Sys2Proof.Machine Sys2Proof.Claims

/-- Start state of the cells of 95_test_vectors.md section 2.6: K = 2, `st = A`, `wr = 1`, `rd = 0`, `mem[0] = 0x5A`. -/
def cell (inh mask : Bool) : State :=
  { State.resetWith 2 with st := .a, wr := 1, mem := [(0, 0x5A)], inh := inh, mask := mask }

/-- A ring buffer with K = 2 inside a foreground critical section, cursors as given and all four slots written. -/
def ring (wr rd : Nat) : State :=
  { State.resetWith 2 with wr := wr, rd := rd, mask := true, mem := [(0, 0x11), (1, 0x22), (2, 0x33), (3, 0x44)] }

/-- A state in which the environment drives these levels and the executing contexts present these words. -/
def presenting (s : State) (ls : List Lines) (fg ih : List CommandWord) : State := { s with lines := ls, fg := fg, ih := ih }

/-- `irq` low and a command presented. -/
def cmd : Lines := { rst := false, irq := false, cmdValid := true }

/-- `irq` high and a command presented. -/
def irqCmd : Lines := { rst := false, irq := true, cmdValid := true }

/-! ### Well-formedness: each check refuses an ill-formed term -/

/-- Clause (a) of 30_encoding.md R67. -/
theorem test_legal_refuses_opcode :
    ([0x0FF, 0x3FF, 0xB00, 0xC00, 0xD48, 0xE00, 0xFFF] : List CommandWord).all (fun w => !legalWord w) = true := by decide

/-- Clause (b) of 30_encoding.md R67. -/
theorem test_legal_refuses_operand :
    ([0x201, 0x580, 0x601, 0x7FF, 0x801, 0x910, 0xA01] : List CommandWord).all (fun w => !legalWord w) = true := by decide

/-- Clause (c) of 30_encoding.md R67. -/
theorem test_legal_refuses_symbol :
    ([0x103, 0x104, 0x180, 0x1FF] : List CommandWord).all (fun w => !legalWord w) = true := by decide

theorem test_legal_accepts :
    ([0x100, 0x101, 0x102, 0x200, 0x400, 0x4FF, 0x500, 0x600, 0x700, 0x800, 0x900, 0xA00] : List CommandWord).all legalWord
      = true := by decide

/-- `morse` takes marks only (30_encoding.md R69). -/
theorem test_wf_refuses_space_in_morse : (AsmLine.morse [.dot, .space]).wf = false := by decide

theorem test_wf_accepts_every_byte : (Instr.push 0xFF).wf = true := by decide

/-! ### Decoding: each command's word written out bit by bit from the opcode map (30_encoding.md R60 to R63) -/

theorem test_decode_stepDot : decode 0b0001_00000000#12 = .ok .stepDot := by decide
theorem test_decode_stepDash : decode 0b0001_00000001#12 = .ok .stepDash := by decide
theorem test_decode_stepSpace : decode 0b0001_00000010#12 = .ok .stepSpace := by decide
theorem test_decode_flush : decode 0b0010_00000000#12 = .ok .flush := by decide
theorem test_decode_push_5A : decode 0b0100_01011010#12 = .ok (.push 0x5A) := by decide
theorem test_decode_push_FF : decode 0b0100_11111111#12 = .ok (.push 0xFF) := by decide
theorem test_decode_pop : decode 0b0101_00000000#12 = .ok .pop := by decide
theorem test_decode_isempty : decode 0b0110_00000000#12 = .ok .isempty := by decide
theorem test_decode_clear : decode 0b0111_00000000#12 = .ok .clear := by decide
theorem test_decode_csenter : decode 0b1000_00000000#12 = .ok .csenter := by decide
theorem test_decode_csexit : decode 0b1001_00000000#12 = .ok .csexit := by decide
theorem test_decode_iret : decode 0b1010_00000000#12 = .ok .iret := by decide

/-- Rejections by name, of words the spec's table 2.5 calls ILLEGAL. -/
theorem test_decode_refuses :
    decode 0b0000_00000001#12 = .error .noSuchOpcode ∧ decode 0b1111_11111111#12 = .error .noSuchOpcode ∧
    decode 0b0101_00000001#12 = .error .operandNotZero ∧ decode 0b0010_11111111#12 = .error .operandNotZero ∧
    decode 0b0001_00000011#12 = .error .noSuchSymbol ∧ decode 0b0001_10000000#12 = .error .noSuchSymbol := by decide

theorem test_table_word_push : decodeTableWord 16 0x448 = some (.push 0x48) ∧ decodeTableWord 12 0x501 = none := by decide

/-- A word placed after reset is what the next step runs (10_state.md R21): STEP.DASH from Start goes to T (2.1). -/
theorem test_fetch_word_runs :
    ∃ t, step (State.reset.withFetchWord 16 0x101) = .next t ∧ t.st = .t ∧ t.out = okOut 0 ∧ t.fg = [] := ⟨_, rfl, by decide⟩

/-! ### One step of each command, from 95_test_vectors.md section 2.6 -/

theorem test_stepDot : ∃ t, exec .stepDot (cell false true) = .next t ∧ t.st = .r ∧ t.out = okOut 0 := ⟨_, rfl, by decide⟩
theorem test_stepDash : ∃ t, exec .stepDash (cell false false) = .next t ∧ t.st = .w ∧ t.out = okOut 0 := ⟨_, rfl, by decide⟩
theorem test_stepSpace : ∃ t, exec .stepSpace (cell false false) = .next t ∧ t.st = .start ∧ t.out = okOut 0x41 :=
  ⟨_, rfl, by decide⟩
theorem test_flush : ∃ t, exec .flush (cell false false) = .next t ∧ t.st = .start ∧ t.out = okOut 0 := ⟨_, rfl, by decide⟩
theorem test_push : ∃ t, exec (.push 0x21) (cell true false) = .next t ∧ t.wr = 2 ∧ t.mem = [(0, 0x5A), (1, 0x21)] :=
  ⟨_, rfl, by decide⟩
theorem test_pop : ∃ t, exec .pop (cell true false) = .next t ∧ t.rd = 1 ∧ (pins t).rw = some 0x05A := ⟨_, rfl, by decide⟩
theorem test_isempty : ∃ t, exec .isempty (cell false true) = .next t ∧ (pins t).rw = some 0x000 := ⟨_, rfl, by decide⟩
theorem test_clear : ∃ t, exec .clear (cell false true) = .next t ∧ t.wr = 0 ∧ t.mem = [(0, 0x5A)] := ⟨_, rfl, by decide⟩
theorem test_csenter : ∃ t, exec .csenter (cell false false) = .next t ∧ (t.inh, t.mask) = (false, true) := ⟨_, rfl, by decide⟩
theorem test_csexit : ∃ t, exec .csexit (cell false true) = .next t ∧ (t.inh, t.mask) = (false, false) := ⟨_, rfl, by decide⟩
theorem test_iret : ∃ t, exec .iret (cell true false) = .next t ∧ (t.inh, t.mask) = (false, false) := ⟨_, rfl, by decide⟩

/-! ### Corner cases -/

/-- Section 2.3 F7 and F10: the three ways out of Dig90. -/
theorem test_dig90_exits :
    transition .dig90 .space = (.start, 0x00) ∧ transition .dig90 .dash = (.start, 0x30) ∧
    transition .dig90 .dot = (.start, 0x39) := by decide

/-- Section 2.3 F19: the three ways out of H. -/
theorem test_h_exits :
    transition .h .space = (.start, 0x48) ∧ transition .h .dash = (.start, 0x34) ∧ transition .h .dot = (.start, 0x35) := by decide

/-- Section 2.3, last paragraph: an FSM command in a handler. -/
theorem test_step_guard : ∃ t, exec .stepDot (cell true false) = .next t ∧ t.st = .a ∧ (pins t).rw = some 0x300 :=
  ⟨_, rfl, by decide⟩

/-- RB1 step 8: the write cursor wraps and slot 3 is written. -/
theorem test_push_wraps : ∃ t, exec (.push 0x99) (ring 3 1) = .next t ∧ t.wr = 0 ∧ slotByte t 3 = 0x99 := ⟨_, rfl, by decide⟩

/-- RB6: full one slot before the wrap. -/
theorem test_push_full : ∃ t, exec (.push 0x99) (ring 3 0) = .next t ∧ t.wr = 3 ∧ (pins t).rw = some 0x100 := ⟨_, rfl, by decide⟩

/-- RB1 step 12: the read cursor wraps. -/
theorem test_pop_wraps : ∃ t, exec .pop (ring 0 3) = .next t ∧ t.rd = 0 ∧ (pins t).rw = some 0x044 := ⟨_, rfl, by decide⟩

/-- RB1 step 13 and step 14: the empty buffer. -/
theorem test_empty_buffer :
    (∃ t, exec .pop (ring 0 0) = .next t ∧ t.rd = 0 ∧ (pins t).rw = some 0x200) ∧
    ∃ t, exec .isempty (ring 0 0) = .next t ∧ (pins t).rw = some 0x001 := ⟨⟨_, rfl, by decide⟩, ⟨_, rfl, by decide⟩⟩

/-- Section 2.7 G3: the grant goes before the word, which waits. -/
theorem test_grant_first :
    ∃ t, step (presenting (cell false false) [irqCmd] [0x100] []) = .next t ∧ t.inh = true ∧ (pins t).iack = 1 ∧
      (pins t).rw = none ∧ t.fg = [0x100] ∧ t.st = .a := ⟨_, rfl, by decide⟩

/-- Section 2.7 G5: a request in a critical section is granted in the step after CSEXIT. -/
theorem test_grant_after_csexit :
    ∃ t, trace 2 (presenting (cell false true) [irqCmd, irqCmd] [0x900, 0x100] []) =
      some (t, [.command 0x900 (okOut 0), .grant]) ∧ t.inh = true ∧ t.mask = false := ⟨_, rfl, by decide⟩

/-- Section 2.7 G9: the reset goes before the grant and the command. -/
theorem test_reset_first :
    ∃ t, step (presenting (cell false true) [{ irqCmd with rst := true }] [0x500] []) = .next t ∧ t.st = .start ∧ t.wr = 0 ∧
      t.mask = false ∧ t.inh = false ∧ t.fg = [0x500] := ⟨_, rfl, by decide⟩

/-- Section 2.5, last paragraph: ILLEGAL comes before GUARD. -/
theorem test_illegal_before_guard :
    ∃ t, step (presenting (cell false false) [cmd] [0x501] []) = .next t ∧ (pins t).rw = some 0x400 ∧ t.rd = 0 :=
  ⟨_, rfl, by decide⟩

/-- E1: the classifier's boundaries and what DetectionLoop feeds. -/
theorem test_classifier :
    [3, 4, 7, 8].map classify = [.dot, .dash, .dash, .space] ∧ [3, 7, 8].map feedAfterMark = [.dot, .dash, .dash] ∧
    [3, 7, 8].map feedAfterGap = [(none, false), (some .space, false), (some .space, true)] := by decide

/-- SymbolEncoder (00_scope.md R15): a lower-case letter, a digit, the four whitespace bytes, any other byte. -/
theorem test_symbol_encoder :
    byteToSymbols 0x61 = [.dot, .dash] ∧ byteToSymbols 0x35 = List.replicate 5 .dot ∧
    [0x20, 0x09, 0x0D, 0x0A].map byteToSymbols = List.replicate 4 [.space] ∧ byteToSymbols 0x2E = [] := by decide

/-- P1's form: an assembled line (30_encoding.md R69). -/
theorem test_assemble : assemble [.morse [.dot, .dash], .gpush 0x41] = [0x100, 0x101, 0x800, 0x441, 0x900] := by decide

/-- A listing with a grant in it: the handler's commands go to the handler's context. -/
theorem test_load_listing :
    let s := loadListing (State.resetWith 2) [.asm (.gpush 0x48), .irq, .grant, .drop, .asm (.command .pop), .asm (.command .iret)]
    s.fg = [0x800, 0x448, 0x900] ∧ s.ih = [0x500, 0xA00] ∧ s.lines.map Lines.irq = [false, false, false, true, false, false] := by
  decide

/-- The levels of P1 steps 7 to 9 keep the duty: the line falls in the handler, after its grant. -/
theorem test_duty_may_drop_after_grant :
    holdsRequest 3 (presenting (cell false false) [irqCmd, irqCmd, cmd] [] [0x500, 0xA00]) = true ∧
    holdsRequest 2 (presenting (cell true false) [irqCmd, cmd] [] [0x500, 0xA00]) = true := by decide

/-- A line that falls in a critical section before its grant breaks the duty, and so does one that rises and falls in a handler. -/
theorem test_duty_refuses_lost_request :
    holdsRequest 2 (presenting (cell false true) [irqCmd, cmd] [0x600, 0x900] []) = false ∧
    holdsRequest 3 (presenting (cell true false) [cmd, irqCmd, cmd] [] [0x600, 0x600, 0xA00]) = false := by decide

/-- The end of P1 is clean though `rst` comes later, and an open handler or a word left to present is not clean (R191). -/
theorem test_clean_end :
    cleanEnd (presenting (cell false false) [{ cmd with cmdValid := false }, { irqCmd with rst := true, cmdValid := false }] [] [])
      = true ∧
    cleanEnd (cell true false) = false ∧ cleanEnd (presenting (cell false false) [cmd] [0x500] []) = false := by decide

/-! ### Witnesses: each statement's hypotheses are met -/

theorem inv_ring (wr rd : Nat) (hw : wr < 4) (hr : rd < 4) : Inv (ring wr rd) := by
  interval_cases wr <;> interval_cases rd <;>
    exact ⟨by decide, ⟨by decide, by decide⟩, by decide, by decide, by decide, by decide⟩

theorem witness_DecodeInvertsEncode : (Instr.push 0xFF).wf = true ∧ Instr.stepSpace.wf = true := by decide

theorem witness_EncodeInvertsDecode : decode 0x4FF = .ok (.push 0xFF) := by decide

theorem witness_DecodeFollowsOpcodeMap :
    decode 0x4FF = .ok (.push 0xFF) ∧ rowOf (.push 0) ∈ opcodeRows ∧ (0x4FF : CommandWord) &&& 0xF00 = 0x400 ∧
    ∀ r ∈ opcodeRows, (0x103 : CommandWord) &&& r.mask ≠ r.pattern := by decide

theorem witness_IllegalWordsChangeNothing :
    choose (presenting (cell true false) [cmd] [] [0x103]) = .command 0x103 ∧ decode 0x103 = .error .noSuchSymbol ∧
    choose (presenting (cell false true) [cmd] [0x501] []) = .command 0x501 ∧ decode 0x501 = .error .operandNotZero ∧
    choose (presenting (cell false false) [cmd] [0xB00] []) = .command 0xB00 ∧ decode 0xB00 = .error .noSuchOpcode := by decide

theorem witness_StepRunsDecodedCommand :
    let s := presenting (cell true false) [irqCmd] [0x102] [0x4FF, 0xA00]
    s.lines = irqCmd :: [] ∧ irqCmd.rst = false ∧ (irqCmd.irq && !s.mask && !s.inh) = false ∧ irqCmd.cmdValid = true ∧
    (if s.inh then s.ih else s.fg) = 0x4FF :: [0xA00] ∧ decode 0x4FF = .ok (.push 0xFF) := by decide

/-- The four clauses: reset, grant, a word presented, nothing presented (no `cmd_valid`, and no word left). -/
theorem witness_StepChosenByPriority :
    ({ irqCmd with rst := true } : Lines).rst = true ∧
    (irqCmd.rst = false ∧ irqCmd.irq = true ∧ (cell false false).mask = false ∧ (cell false false).inh = false) ∧
    (irqCmd.rst = false ∧ (cell false true).mask = true ∧ irqCmd.cmdValid = true ∧
      (let s := presenting (cell false true) [irqCmd] [0x900] []; (if s.inh then s.ih else s.fg) = 0x900 :: [])) ∧
    ({ cmd with cmdValid := false } : Lines).cmdValid = false ∧
    (let s := presenting (cell true false) [cmd] [0x900] []; (if s.inh then s.ih else s.fg) = []) := by decide

theorem witness_GrantEntersHandler :
    let s := presenting (cell false false) [irqCmd] [0x100] []
    s.lines = irqCmd :: [] ∧ irqCmd.rst = false ∧ irqCmd.irq = true ∧ s.mask = false ∧ s.inh = false := by decide

/-- Each of the six elements is written by some step. -/
theorem witness_StateWrittenOnlyByItsEvents :
    (∃ t, step (presenting (cell false false) [cmd] [0x200] []) = .next t ∧ t.st ≠ .a) ∧
    (∃ t, step (presenting (cell false true) [cmd] [0x421] []) = .next t ∧ t.mem ≠ [(0, 0x5A)] ∧ t.wr ≠ 1) ∧
    (∃ t, step (presenting (cell true false) [cmd] [] [0x500]) = .next t ∧ t.rd ≠ 0) ∧
    (∃ t, step (presenting (cell false true) [cmd] [0x900] []) = .next t ∧ t.mask ≠ true) ∧
    (∃ t, step (presenting (cell false false) [irqCmd] [] []) = .next t ∧ t.inh ≠ false) :=
  ⟨⟨_, rfl, by decide⟩, ⟨_, rfl, by decide⟩, ⟨_, rfl, by decide⟩, ⟨_, rfl, by decide⟩, ⟨_, rfl, by decide⟩⟩

theorem witness_ResetEventSetsResetValues :
    let l : Lines := { irqCmd with rst := true }
    (presenting (cell true false) [l] [0x100] [0x500]).lines = l :: [] ∧ l.rst = true := by decide

theorem witness_StepCommandsFeedTheTable : (cell false true).inh = false ∧ (cell true false).inh = true := by decide

/-- For the three statements about the rows of T: every state of the decoder can be met in the foreground. -/
theorem witness_Rows (node : DecoderState) :
    ({ cell false false with st := node } : State).st = node ∧ ({ cell false false with st := node } : State).inh = false :=
  ⟨rfl, rfl⟩

theorem witness_FlushReturnsToStart : (cell false false).inh = false ∧ (cell true false).inh = true := by decide

theorem witness_EmissionReturnsToStart :
    (transitionWith (fun _ _ => .z) (fun _ => 0x3F) .dig2 .dash).2 ≠ 0 ∧
    (transitionWith (fun _ _ => .z) (fun _ => 0x3F) .dig2 .space).2 ≠ 0 := by decide

/-- A lower-case letter (the clause of a letter) and a digit (the clause of a digit). -/
theorem witness_CharacterRoundTrip :
    (State.resetWith 2).st = .start ∧ (State.resetWith 2).inh = false ∧
    (isWhitespace 0x7A = false ∧ byteToSymbols 0x7A ≠ [] ∧ 0x41 ≤ (upperCase 0x7A).toNat) ∧
    (isWhitespace 0x39 = false ∧ byteToSymbols 0x39 ≠ [] ∧ (upperCase 0x39).toNat < 0x41) := by decide

theorem witness_RoundTripForEveryParameter : ((0x30 : Byte), List.replicate 5 Symbol.dash) ∈ codeTable := by decide

theorem witness_EveryDecoderStateReached : (State.resetWith 1).st = .start ∧ (State.resetWith 1).inh = false := by decide

theorem witness_SpacesReturnToStartAndStay : (cell false true).inh = false := by decide

theorem witness_EmittedBytesAreTheCharacters :
    (cell false false).inh = false ∧ (0x30 ≤ (0x39 : Byte).toNat ∧ (0x39 : Byte).toNat ≤ 0x39) ∧
    (0x41 ≤ (0x5A : Byte).toNat ∧ (0x5A : Byte).toNat ≤ 0x5A) := by decide

theorem witness_FiveMarksPassStart :
    let marks : List Symbol := [.dot, .dash, .dot, .dash, .dot]
    (State.resetWith 1).st = .start ∧ (State.resetWith 1).inh = false ∧ marks.length = 5 ∧ ∀ y ∈ marks, y.isMark = true := by
  decide

/-- Not admitted; full at the wrap; stored at the wrap. -/
theorem witness_PushStoresAndAdvances :
    ((cell false false).inh = false ∧ (cell false false).mask = false) ∧
    (ringAdmitted (ring 3 0) ∧ ((ring 3 0).wr + 1) % 2 ^ (ring 3 0).k = (ring 3 0).rd) ∧
    (ringAdmitted (ring 3 1) ∧ ((ring 3 1).wr + 1) % 2 ^ (ring 3 1).k ≠ (ring 3 1).rd ∧ (ring 3 1).wr < 2 ^ (ring 3 1).k) := by
  decide

/-- Not admitted; empty; loaded at the wrap. -/
theorem witness_PopReturnsAndAdvances :
    ((cell false false).inh = false ∧ (cell false false).mask = false) ∧
    (ringAdmitted (ring 3 3) ∧ (ring 3 3).wr = (ring 3 3).rd) ∧
    (ringAdmitted (ring 0 3) ∧ (ring 0 3).wr ≠ (ring 0 3).rd ∧ (ring 0 3).rd < 2 ^ (ring 0 3).k) := by decide

theorem witness_IsemptyReportsEmptiness :
    ((cell false false).inh = false ∧ (cell false false).mask = false) ∧ ringAdmitted (cell true false) := by decide

theorem witness_ClearZeroesCursors :
    ((cell false false).inh = false ∧ (cell false false).mask = false) ∧ ringAdmitted (ring 3 0) := by decide

theorem witness_FailuresRepeatUnchanged :
    (ringAdmitted (ring 0 1) ∧ ((ring 0 1).wr + 1) % 2 ^ (ring 0 1).k = (ring 0 1).rd) ∧
    (ringAdmitted (ring 2 2) ∧ (ring 2 2).wr = (ring 2 2).rd) := by decide

theorem witness_ClearThenEmpty : ringAdmitted (ring 3 0) := by decide

/-- Occupancy 0, N - 2 and N - 1. -/
theorem witness_OccupancyMovesByOne :
    (1 ≤ (ring 3 3).k ∧ ringAdmitted (ring 3 3) ∧ occupancy (ring 3 3) = 0) ∧
    (ringAdmitted (ring 1 3) ∧ occupancy (ring 1 3) + 2 = slots (ring 1 3)) ∧
    (ringAdmitted (ring 2 3) ∧ occupancy (ring 2 3) + 1 = slots (ring 2 3)) ∧
    CursorsInRange (ring 3 3) ∧ CursorsInRange (ring 1 3) ∧ CursorsInRange (ring 2 3) := by
  unfold CursorsInRange; decide

theorem witness_CapacityIsSlotsMinusOne :
    1 ≤ (ring 3 3).k ∧ CursorsInRange (ring 3 3) ∧ (ring 3 3).wr = (ring 3 3).rd ∧ ringAdmitted (ring 3 3) ∧
    ([0x11, 0x22, 0x33] : List Byte).length + 1 = slots (ring 3 3) := by
  unfold CursorsInRange; decide

/-- Two pushes and a pop, from a buffer that is empty at slot 3. -/
theorem witness_FifoOverEveryRun :
    let s := presenting (ring 3 3) [cmd, cmd, cmd] [0x448, 0x449, 0x500] []
    Inv s ∧ s.wr = s.rd ∧ ∃ t es, trace 3 s = some (t, es) ∧ (∀ e ∈ es, e.empties = false) ∧
      es.filterMap pushedByte = [0x48, 0x49] ∧ es.filterMap poppedByte = [0x48] := by
  refine ⟨?_, rfl, _, _, rfl, by decide, by decide, by decide⟩
  exact ⟨by decide, ⟨by decide, by decide⟩, by decide, by decide, by decide, by decide⟩

theorem witness_PopNeverReadsUnwrittenSlot :
    Inv (ring 0 3) ∧ ∃ t, exec .pop (ring 0 3) = .next t ∧ t.out = okOut 0x44 :=
  ⟨inv_ring 0 3 (by decide) (by decide), _, rfl, by decide⟩

theorem witness_ReadBackYieldsContents :
    let s : State := { ring 1 3 with mask := false }
    Inv s ∧ s.inh = false ∧ s.mask = false ∧ contents s = [0x44, 0x11] :=
  ⟨⟨by decide, ⟨by decide, by decide⟩, by decide, by decide, by decide, by decide⟩, by decide⟩

/-- An admitted and a refused command, in a legal arbitration state with cursors in range. -/
theorem witness_GuardTableHolds :
    arbitrationLegal (ring 3 0) ∧ CursorsInRange (ring 3 0) ∧
    guardTable (.push 0) (ring 3 0).inh (ring 3 0).mask = true ∧ guardTable .iret (ring 3 0).inh (ring 3 0).mask = false := by
  unfold CursorsInRange; decide

theorem witness_CsenterOpensSection :
    ((cell false false).inh = false ∧ (cell false false).mask = false) ∧ (cell true false).inh = true ∧
    (cell false true).mask = true := by decide

theorem witness_CsexitClosesSection :
    (let s := presenting (cell false true) [irqCmd] [] [];
      s.inh = false ∧ s.mask = true ∧ (currentLines s).rst = false ∧ (currentLines s).irq = true) ∧
    (cell true false).inh = true ∧ (cell false false).mask = false := by decide

theorem witness_IretEndsHandler :
    (let s := presenting (cell true false) [irqCmd] [] [];
      s.inh = true ∧ s.mask = false ∧ (currentLines s).rst = false ∧ (currentLines s).irq = true) ∧
    (cell false true).inh = false := by decide

theorem witness_MaskAndInhNeverBoth :
    arbitrationLegal (cell false false) ∧ ∃ t, step (presenting (cell false false) [irqCmd] [] []) = .next t ∧ t.inh = true :=
  ⟨by decide, _, rfl, by decide⟩

/-- A critical section with `irq` high, a push and an idle step in it. -/
theorem witness_CriticalSectionIsAtomic :
    let s := presenting (cell false true) [irqCmd, { irqCmd with cmdValid := false }] [0x448] [0x500]
    s.mask = true ∧ s.inh = false ∧ ∃ t es, trace 2 s = some (t, es) ∧ ∀ e ∈ es, e.isOk .csexit = false ∧ e ≠ .reset :=
  ⟨by decide, by decide, _, _, rfl, by decide⟩

/-- A handler with `irq` high, a pop and a refused FLUSH in it. -/
theorem witness_HandlerIsAtomic :
    let s := presenting (cell true false) [irqCmd, irqCmd] [0x448] [0x500, 0x200]
    s.inh = true ∧ s.mask = false ∧ ∃ t es, trace 2 s = some (t, es) ∧ ∀ e ∈ es, e.isOk .iret = false ∧ e ≠ .reset :=
  ⟨by decide, by decide, _, _, rfl, by decide⟩

/-- A request raised at a push and held over the CSEXIT after it. -/
theorem witness_HeldRequestIsGranted :
    let s := presenting (cell false true) [irqCmd, irqCmd, irqCmd] [0x448, 0x900, 0x100] []
    s.mask = true ∧ s.inh = false ∧ (currentLines s).irq = true ∧ holdsRequest 2 s = true ∧
    ∃ t es e, trace 2 s = some (t, es ++ [e]) ∧ (∀ e' ∈ es, e'.isOk .csexit = false ∧ e' ≠ .reset) ∧
      e.isOk .csexit = true ∧ (currentLines t).rst = false :=
  ⟨by decide, by decide, by decide, by decide, _, [.command 0x448 (okOut 0)], .command 0x900 (okOut 0), rfl, by decide⟩

theorem witness_NoArbitrationDeadlock :
    arbitrationLegal (cell false false) ∧ arbitrationLegal (cell false true) ∧ arbitrationLegal (cell true false) := by decide

theorem witness_EveryStepKeepsInvariant :
    let s := presenting (ring 3 1) [cmd] [0x499] []
    Inv s ∧ ∃ t, step s = .next t ∧ t.wr = 0 :=
  ⟨⟨by decide, ⟨by decide, by decide⟩, by decide, by decide, by decide, by decide⟩, _, rfl, by decide⟩

theorem witness_InvariantHoldsAtReset : 1 ≤ (State.resetWith 1).k := by decide

theorem witness_RunsNeverStop : Inv (ring 3 0) := inv_ring 3 0 (by decide) (by decide)

theorem witness_HalvesDoNotInterfere :
    Instr.flush ∈ fsmCommands ∧ Instr.push 0x21 ∈ [Instr.push 0x21, .pop, .isempty, .clear] ∧
    ∃ t, exec (.push 0x21) (cell false true) = .next t ∧ t.out = okOut 0 := ⟨by decide, by decide, _, rfl, by decide⟩

theorem witness_FsmCommandsFrame :
    Instr.stepDash ∈ fsmCommands ∧ ∃ t, exec .stepDash (cell false false) = .next t ∧ t.st = .w := ⟨by decide, _, rfl, by decide⟩

theorem witness_RingCommandsFrame :
    (∃ t, exec (.push 0x99) (ring 3 1) = .next t ∧ t.wr = 0) ∧ (∃ t, exec .pop (ring 0 3) = .next t ∧ t.rd = 0) ∧
    (∃ t, exec .isempty (ring 0 3) = .next t ∧ t.out = okOut 0) ∧ ∃ t, exec .clear (ring 0 3) = .next t ∧ t.rd = 0 :=
  ⟨⟨_, rfl, by decide⟩, ⟨_, rfl, by decide⟩, ⟨_, rfl, by decide⟩, ⟨_, rfl, by decide⟩⟩

theorem witness_ArbitrationCommandsFrame :
    Instr.csenter ∈ arbitrationCommands ∧ Instr.iret ∈ arbitrationCommands ∧
    (∃ t, exec .csenter (cell false false) = .next t ∧ t.mask = true) ∧
    ∃ t, exec .iret (cell true false) = .next t ∧ t.inh = false := ⟨by decide, by decide, ⟨_, rfl, by decide⟩, ⟨_, rfl, by decide⟩⟩

/-- An illegal word, a FULL, an EMPTY, an OK of each kind, and a grant. -/
theorem witness_ResponseWordsByCommand :
    (choose (presenting (cell true false) [cmd] [] [0xA01]) = .command 0xA01 ∧ decode 0xA01 = .error .operandNotZero) ∧
    (∃ t, exec (.push 0) (ring 3 0) = .next t ∧ t.out = .response .full) ∧
    (∃ t, exec .pop (ring 0 0) = .next t ∧ t.out = .response .empty) ∧
    (∃ t, exec .pop (ring 0 3) = .next t ∧ t.out = okOut 0x44) ∧
    (∃ t, exec .isempty (ring 0 0) = .next t ∧ t.out = okOut 1) ∧
    (∃ t, exec .stepSpace (cell false false) = .next t ∧ t.out = okOut 0x41) ∧
    (∃ t, exec .clear (ring 3 0) = .next t ∧ t.out = okOut 0) ∧
    choose (presenting (cell false false) [irqCmd] [] []) = .grant :=
  ⟨by decide, ⟨_, rfl, by decide⟩, ⟨_, rfl, by decide⟩, ⟨_, rfl, by decide⟩, ⟨_, rfl, by decide⟩, ⟨_, rfl, by decide⟩, ⟨_, rfl, by decide⟩,
    by decide⟩

theorem witness_PinsShowTheState :
    ∃ t, step (presenting (cell false false) [irqCmd] [] []) = .next t ∧ t.inh = true ∧ t.mask = false := ⟨_, rfl, by decide⟩

/-- The three clauses: an illegal word, a refused command, an admitted command. -/
theorem witness_ChecksRunInOrder :
    (let s := presenting (cell false false) [cmd] [0x501] [];
      choose s = .command 0x501 ∧ arbitrationLegal s ∧ CursorsInRange s ∧ decode 0x501 = .error .operandNotZero) ∧
    (let s := presenting (cell false false) [cmd] [0x500] [];
      choose s = .command 0x500 ∧ arbitrationLegal s ∧ CursorsInRange s ∧ decode 0x500 = .ok .pop ∧
        guardTable .pop s.inh s.mask = false) ∧
    (let s := presenting (cell true false) [cmd] [] [0x500];
      choose s = .command 0x500 ∧ arbitrationLegal s ∧ CursorsInRange s ∧ decode 0x500 = .ok .pop ∧
        guardTable .pop s.inh s.mask = true) := by
  unfold CursorsInRange; decide

/-- The four pairs, and a `morse` string. -/
theorem witness_PseudoInstructionsAreGuarded :
    let pairs := [(AsmLine.gpush 0xFF, Instr.push 0xFF), (.gpop, .pop), (.gisempty, .isempty), (.gclear, .clear)]
    ((cell false false).inh = false ∧ (cell false false).mask = false ∧ CursorsInRange (cell false false)) ∧
    ((AsmLine.gpush 0xFF, Instr.push 0xFF) ∈ pairs ∧ (AsmLine.gpop, Instr.pop) ∈ pairs ∧
      (AsmLine.gisempty, Instr.isempty) ∈ pairs ∧ (AsmLine.gclear, Instr.clear) ∈ pairs) ∧
    (AsmLine.morse [.dot, .dash]).wf = true := by
  unfold CursorsInRange; decide

theorem witness_ClassifierBoundaries : 3 ≤ 3 ∧ (4 ≤ 7 ∧ 7 ≤ 7) ∧ 7 < 8 := by decide

/-- 'A' keyed with a mark of 3 ticks and one of 4, and closed by a gap of 4. -/
theorem witness_KeyedCharacterIsDecoded :
    ((0x41 : Byte), [Symbol.dot, .dash]) ∈ codeTable ∧
    [3, 4].map (fun n => if n ≤ 3 then Symbol.dot else .dash) = [.dot, .dash] ∧ 3 < 4 := by decide

/-- A full pop step from a state and from one that differs in `resetCount` and in the ports. -/
theorem witness_SixElementsAreTheWholeState :
    let s := presenting (ring 0 3) [cmd] [0x500] []
    let s' : State := { s with resetCount := 7, out := .grantAck }
    Inv s ∧ s'.toBlock = s.toBlock ∧ s'.k = s.k ∧ s'.lines = s.lines ∧ s'.fg = s.fg ∧ s'.ih = s.ih ∧
      choose s = .command 0x500 ∧ ∃ t, step s = .next t ∧ t.out = okOut 0x44 :=
  ⟨⟨by decide, ⟨by decide, by decide⟩, by decide, by decide, by decide, by decide⟩, rfl, rfl, rfl, rfl, rfl, by decide,
    _, rfl, by decide⟩

end Sys2Proof.Tests
end

section
/-!
PROOF. The surrounding software's pure functions (00_scope.md R12): one equation of `classify` per range of the tick count, and the
statement assembled from them.
-/

namespace Sys2Proof.Proofs

open Sys2Proof.Machine

theorem classify_of_le_three {ticks : Nat} (short : ticks ≤ 3) : classify ticks = .dot :=
  if_pos short

theorem classify_of_four_le_of_le_seven {ticks : Nat} (notShort : 4 ≤ ticks) (notLong : ticks ≤ 7) : classify ticks = .dash :=
  calc classify ticks
    _ = if ticks ≤ 7 then .dash else .space := if_neg (by omega)
    _ = .dash := if_pos notLong

theorem classify_of_seven_lt {ticks : Nat} (long : 7 < ticks) : classify ticks = .space :=
  calc classify ticks
    _ = if ticks ≤ 7 then .dash else .space := if_neg (by omega)
    _ = .space := if_neg (by omega)

/-- Settles O57: one equation of the classifier per clause. -/
theorem classifierBoundaries : Obligations.ClassifierBoundaries :=
  fun _ => ⟨classify_of_le_three, classify_of_four_le_of_le_seven, classify_of_seven_lt⟩

end Sys2Proof.Proofs
end

section
/-!
PROOF. The decoder against the opcode map (30_encoding.md R60 to R68): the fields of a word, one inversion lemma of `decode`, and
that a word decodes to exactly the command whose encoding it is. From these the opcode map's rows and the clauses of R67.
-/

namespace Sys2Proof.Proofs

open Sys2Proof.Machine

/-! ### The two fields of a word (30_encoding.md R60) -/

theorem opcOf_toNat (w : CommandWord) : (opcOf w).toNat = w.toNat / 256 := by
  have := w.isLt
  simp only [opcOf, BitVec.extractLsb'_toNat, Nat.shiftRight_eq_div_pow]
  omega

theorem argOf_toNat (w : CommandWord) : (argOf w).toNat = w.toNat % 256 := by
  simp [argOf]

theorem wordOf_toNat (opc : BitVec 4) (arg : Byte) : (wordOf opc arg).toNat = opc.toNat * 256 + arg.toNat := by
  rw [wordOf, BitVec.toNat_append, ← Nat.shiftLeft_add_eq_or_of_lt arg.isLt, Nat.shiftLeft_eq]

theorem wordOf_fields (w : CommandWord) : wordOf (opcOf w) (argOf w) = w := by
  apply BitVec.eq_of_toNat_eq
  rw [wordOf_toNat, opcOf_toNat, argOf_toNat]
  omega

@[simp] theorem opcOf_wordOf (opc : BitVec 4) (arg : Byte) : opcOf (wordOf opc arg) = opc := by
  have := arg.isLt
  apply BitVec.eq_of_toNat_eq
  rw [opcOf_toNat, wordOf_toNat]
  omega

@[simp] theorem argOf_wordOf (opc : BitVec 4) (arg : Byte) : argOf (wordOf opc arg) = arg := by
  have := arg.isLt
  apply BitVec.eq_of_toNat_eq
  rw [argOf_toNat, wordOf_toNat]
  omega

/-! ### The two formats with a check (30_encoding.md R61) -/

theorem decodeFormatN_zero (i : Instr) : decodeFormatN i 0 = .ok i := if_pos rfl

theorem decodeFormatN_of_ne_zero (i : Instr) {arg : Byte} (h : arg ≠ 0) : decodeFormatN i arg = .error .operandNotZero :=
  if_neg h

theorem decodeFormatS_symArg (y : Symbol) : decodeFormatS (symArg y) = .ok (stepOf y) := by cases y <;> decide

/-- An operand field below 3 is the code of a symbol, padded with zeros. -/
theorem eq_symArg_of_lt_three {arg : Byte} (h : arg.toNat < 3) : ∃ y, arg = symArg y := by
  have codes : arg.toNat = 0 ∨ arg.toNat = 1 ∨ arg.toNat = 2 := by omega
  obtain h0 | h1 | h2 := codes
  · exact ⟨.dot, BitVec.eq_of_toNat_eq h0⟩
  · exact ⟨.dash, BitVec.eq_of_toNat_eq h1⟩
  · exact ⟨.space, BitVec.eq_of_toNat_eq h2⟩

theorem decodeFormatS_of_three_le {arg : Byte} (h : 3 ≤ arg.toNat) : decodeFormatS arg = .error .noSuchSymbol := by
  revert arg; decide

/-! ### The decoder -/

/-- The seven commands of format N with their opcodes (30_encoding.md R61, R62). -/
def formatNCommands : List (BitVec 4 × Instr) :=
  [(0x2, .flush), (0x5, .pop), (0x6, .isempty), (0x7, .clear), (0x8, .csenter), (0x9, .csexit), (0xA, .iret)]

theorem encode_formatN : ∀ p ∈ formatNCommands, encode p.2 = wordOf p.1 0 := by decide

/-- All that the decoder can do, one case for each opcode: format S, PUSH, format N, or no such opcode. -/
theorem decode_cases (w : CommandWord) :
    (opcOf w = 0x1 ∧ decode w = decodeFormatS (argOf w)) ∨
    (opcOf w = 0x4 ∧ decode w = .ok (.push (argOf w))) ∨
    (∃ p ∈ formatNCommands, opcOf w = p.1 ∧ decode w = decodeFormatN p.2 (argOf w)) ∨
    (opcOf w ∈ ([0x0, 0x3, 0xB, 0xC, 0xD, 0xE, 0xF] : List (BitVec 4)) ∧ decode w = .error .noSuchOpcode) := by
  unfold decode
  generalize opcOf w = opc
  obtain ⟨⟨n, hn⟩⟩ := opc
  interval_cases n <;> simp [formatNCommands]

theorem decode_encode_push (b : Byte) : decode (encode (.push b)) = .ok (.push b) := by
  simp [decode, encode]

/-- Every command's word decodes to that command (30_encoding.md R62). -/
theorem decode_encode : ∀ i : Instr, decode (encode i) = .ok i
  | .push b => decode_encode_push b
  | .stepDot | .stepDash | .stepSpace | .flush | .pop | .isempty | .clear | .csenter | .csexit | .iret => by decide

theorem encode_injective {i j : Instr} (h : encode i = encode j) : i = j :=
  Except.ok.inj <| by rw [← decode_encode i, h, decode_encode]

theorem encode_stepOf (y : Symbol) : encode (stepOf y) = wordOf 0x1 (symArg y) := by cases y <;> rfl

/-- A word that decodes is the word of its command (30_encoding.md R62). -/
theorem encode_of_decode {w : CommandWord} {i : Instr} (h : decode w = .ok i) : encode i = w := by
  obtain ⟨opc, hd⟩ | ⟨opc, hd⟩ | ⟨p, hp, opc, hd⟩ | ⟨-, hd⟩ := decode_cases w <;> rw [hd] at h
  case inl =>
    obtain small | large := Nat.lt_or_ge (argOf w).toNat 3
    · obtain ⟨y, arg⟩ := eq_symArg_of_lt_three small
      rw [arg, decodeFormatS_symArg] at h
      rw [← Except.ok.inj h, encode_stepOf, ← opc, ← arg, wordOf_fields]
    · rw [decodeFormatS_of_three_le large] at h
      cases h
  case inr.inl =>
    rw [← Except.ok.inj h, encode, ← opc, wordOf_fields]
  case inr.inr.inl =>
    obtain arg | arg := eq_or_ne (argOf w) 0
    · rw [arg, decodeFormatN_zero] at h
      rw [← Except.ok.inj h, encode_formatN p hp, ← opc, ← arg, wordOf_fields]
    · rw [decodeFormatN_of_ne_zero _ arg] at h
      cases h
  case inr.inr.inr => cases h

theorem decode_eq_ok_iff (w : CommandWord) (i : Instr) : decode w = .ok i ↔ encode i = w :=
  ⟨encode_of_decode, fun h => h ▸ decode_encode i⟩

/-! ### The rows of the opcode map (30_encoding.md R62) -/

/-- The ten commands without a byte: each has one word. -/
def commandsWithoutByte : List Instr :=
  [.stepDot, .stepDash, .stepSpace, .flush, .pop, .isempty, .clear, .csenter, .csexit, .iret]

theorem encodesToOwnRow : ∀ i : Instr, Laws.EncodesToOwnRow.Statement i
  | .stepDot => Laws.EncodesToOwnRow.stepDot
  | .stepDash => Laws.EncodesToOwnRow.stepDash
  | .stepSpace => Laws.EncodesToOwnRow.stepSpace
  | .flush => Laws.EncodesToOwnRow.flush
  | .push b => Laws.EncodesToOwnRow.push b
  | .pop => Laws.EncodesToOwnRow.pop
  | .isempty => Laws.EncodesToOwnRow.isempty
  | .clear => Laws.EncodesToOwnRow.clear
  | .csenter => Laws.EncodesToOwnRow.csenter
  | .csexit => Laws.EncodesToOwnRow.csexit
  | .iret => Laws.EncodesToOwnRow.iret

/-- A word that decodes selects its command's row. -/
theorem decode_selects_rowOf {w : CommandWord} {i : Instr} (h : decode w = .ok i) :
    rowOf i ∈ opcodeRows ∧ w &&& (rowOf i).mask = (rowOf i).pattern := by
  obtain ⟨-, selects, listed⟩ := encodesToOwnRow i
  rw [encode_of_decode h] at selects
  exact ⟨listed, eq_of_beq selects⟩

theorem opcodeRows_cases : ∀ r ∈ opcodeRows, r = rowOf (.push 0) ∨ ∃ i ∈ commandsWithoutByte, r = rowOf i := by decide

/-- The row of a command without a byte compares all twelve bits with the command's word. -/
theorem row_of_commandWithoutByte :
    ∀ i ∈ commandsWithoutByte, (rowOf i).mask = BitVec.allOnes 12 ∧ (rowOf i).pattern = encode i := by decide

/-- PUSH's row compares the opcode alone. -/
theorem opcOf_of_push_row {w : CommandWord} (h : w &&& 0xF00 = 0x400) : opcOf w = 0x4 := by
  calc opcOf w
    _ = opcOf w &&& opcOf 0xF00 := BitVec.and_allOnes.symm
    _ = opcOf (w &&& 0xF00) := BitVec.extractLsb'_and.symm
    _ = opcOf 0x400 := congrArg opcOf h
    _ = 0x4 := by decide

/-- A word that selects a row is the word of a command of that row. -/
theorem encode_of_row {w : CommandWord} {r : OpcodeRow} (hr : r ∈ opcodeRows) (h : w &&& r.mask = r.pattern) :
    ∃ i, encode i = w ∧ rowOf i = r := by
  obtain rfl | ⟨i, hi, rfl⟩ := opcodeRows_cases r hr
  · refine ⟨.push (argOf w), ?_, rfl⟩
    rw [encode, ← opcOf_of_push_row h, wordOf_fields]
  · obtain ⟨mask, pattern⟩ := row_of_commandWithoutByte i hi
    rw [mask, BitVec.and_allOnes, pattern] at h
    exact ⟨i, h.symm, rfl⟩

theorem decode_of_row {w : CommandWord} {r : OpcodeRow} (hr : r ∈ opcodeRows) (h : w &&& r.mask = r.pattern) :
    ∃ i, decode w = .ok i ∧ rowOf i = r := by
  obtain ⟨i, hi, row⟩ := encode_of_row hr h
  exact ⟨i, (decode_eq_ok_iff w i).2 hi, row⟩

/-- No word selects two rows, because it decodes to one command. -/
theorem row_unique {w : CommandWord} {r r' : OpcodeRow} (hr : r ∈ opcodeRows) (hr' : r' ∈ opcodeRows)
    (h : w &&& r.mask = r.pattern) (h' : w &&& r'.mask = r'.pattern) : r = r' := by
  obtain ⟨i, hd, rfl⟩ := decode_of_row hr h
  obtain ⟨j, hd', rfl⟩ := decode_of_row hr' h'
  rw [Except.ok.inj (hd.symm.trans hd')]

theorem decode_error_of_no_row {w : CommandWord} (h : ∀ r ∈ opcodeRows, w &&& r.mask ≠ r.pattern) :
    ∃ e, decode w = .error e := by
  cases hd : decode w with
  | error e => exact ⟨e, rfl⟩
  | ok i =>
    obtain ⟨listed, selects⟩ := decode_selects_rowOf hd
    exact absurd selects (h _ listed)

/-! ### The number of legal words (30_encoding.md R62) -/

/-- Every command, PUSH once with each byte. -/
def everyInstr : List Instr := commandsWithoutByte ++ (List.finRange 256).map (fun b => .push (BitVec.ofFin b))

theorem mem_everyInstr : ∀ i : Instr, i ∈ everyInstr
  | .push b => by simp only [everyInstr, List.mem_append, List.mem_map]; exact .inr ⟨b.toFin, List.mem_finRange _, rfl⟩
  | .stepDot | .stepDash | .stepSpace | .flush | .pop | .isempty | .clear | .csenter | .csexit | .iret =>
    List.mem_append_left _ (by decide)

theorem everyInstr_nodup : everyInstr.Nodup := by
  refine List.nodup_append.2 ⟨by decide, (List.nodup_finRange 256).map ?_, ?_⟩
  · intro a b h; simpa using h
  · simp [commandsWithoutByte]

theorem length_everyInstr : everyInstr.length = 266 := by simp [everyInstr, commandsWithoutByte]

theorem tableWord_of_lt {n : Nat} (hn : n < 4096) : tableWord 12 n = some (BitVec.ofNat 12 n) := by
  simp [tableWord, Nat.mod_eq_of_lt hn, hn]

theorem decodeTableWord_isSome_iff {n : Nat} (hn : n < 4096) :
    (decodeTableWord 12 n).isSome = true ↔ ∃ i, (encode i).toNat = n := by
  have word (i : Instr) : (encode i).toNat = n ↔ decode (BitVec.ofNat 12 n) = .ok i := by
    rw [decode_eq_ok_iff, ← BitVec.toNat_inj, BitVec.toNat_ofNat, Nat.mod_eq_of_lt hn]
  simp only [word, decodeTableWord, tableWord_of_lt hn]
  cases decode (BitVec.ofNat 12 n) <;> simp

/-- The legal words are the words of the commands, each once. -/
theorem legalWords_perm :
    ((List.range 4096).filter (fun n => (decodeTableWord 12 n).isSome)).Perm (everyInstr.map (fun i => (encode i).toNat)) := by
  refine (List.perm_ext_iff_of_nodup (List.nodup_range.filter _) (everyInstr_nodup.map ?_)).2 fun n => ?_
  · exact fun i j h => encode_injective (BitVec.eq_of_toNat_eq h)
  · simp only [List.mem_filter, List.mem_range, List.mem_map, mem_everyInstr, true_and]
    constructor
    · rintro ⟨hn, legal⟩
      exact (decodeTableWord_isSome_iff hn).1 legal
    · rintro ⟨i, rfl⟩
      exact ⟨(encode i).isLt, (decodeTableWord_isSome_iff (encode i).isLt).2 ⟨i, rfl⟩⟩

/-- Settles O3: a word decodes to `i` exactly when it is the word of `i`, so rows, disjointness and the count are facts about the
commands' words. -/
theorem decodeFollowsOpcodeMap : Obligations.DecodeFollowsOpcodeMap := by
  refine ⟨rfl, fun _ _ => decode_selects_rowOf, fun _ _ => decode_of_row, fun _ _ _ => row_unique,
    fun _ => decode_error_of_no_row, decode_encode_push, ?_⟩
  rw [legalWords_perm.length_eq, List.length_map, length_everyInstr]

/-! ### The illegal words (30_encoding.md R67) -/

/-- A format N word is illegal exactly when its operand field is not 0. -/
theorem decodeFormatN_error_iff (i : Instr) (arg : Byte) : (∃ e, decodeFormatN i arg = .error e) ↔ arg.toNat ≠ 0 := by
  constructor
  · rintro ⟨e, he⟩ zero
    obtain rfl : arg = 0 := BitVec.eq_of_toNat_eq zero
    rw [decodeFormatN_zero] at he
    cases he
  · exact fun nonzero => ⟨_, decodeFormatN_of_ne_zero i fun zero => nonzero (congrArg BitVec.toNat zero)⟩

theorem decodeFormatS_error_iff (arg : Byte) : (∃ e, decodeFormatS arg = .error e) ↔ 3 ≤ arg.toNat := by
  constructor
  · rintro ⟨e, he⟩
    by_contra small
    obtain ⟨y, rfl⟩ := eq_symArg_of_lt_three (Nat.lt_of_not_le small)
    rw [decodeFormatS_symArg] at he
    cases he
  · exact fun large => ⟨_, decodeFormatS_of_three_le large⟩

/-- An opcode of format N is one of clause (b)'s, and neither one of clause (a)'s nor STEP's. -/
theorem formatN_opcodes : ∀ p ∈ formatNCommands,
    p.1.toNat ∉ [0x0, 0x3, 0xB, 0xC, 0xD, 0xE, 0xF] ∧ p.1.toNat ≠ 0x1 ∧ p.1.toNat ∈ [0x2, 0x5, 0x6, 0x7, 0x8, 0x9, 0xA] := by
  decide

theorem unnamed_opcodes : ∀ opc ∈ ([0x0, 0x3, 0xB, 0xC, 0xD, 0xE, 0xF] : List (BitVec 4)),
    opc.toNat ∈ [0x0, 0x3, 0xB, 0xC, 0xD, 0xE, 0xF] := by
  decide

/-- The three clauses of R67, on the two fields. -/
theorem decode_error_iff (w : CommandWord) : (∃ e, decode w = .error e) ↔
    ((w.toNat / 256 ∈ [0x0, 0x3, 0xB, 0xC, 0xD, 0xE, 0xF]) ∨
     (w.toNat / 256 ∈ [0x2, 0x5, 0x6, 0x7, 0x8, 0x9, 0xA] ∧ w.toNat % 256 ≠ 0) ∨
     (w.toNat / 256 = 0x1 ∧ 0x03 ≤ w.toNat % 256)) := by
  rw [← opcOf_toNat, ← argOf_toNat]
  obtain ⟨opc, hd⟩ | ⟨opc, hd⟩ | ⟨p, hp, opc, hd⟩ | ⟨opc, hd⟩ := decode_cases w <;> rw [hd]
  case inl => simp [opc, decodeFormatS_error_iff]
  case inr.inl => simp [opc]
  case inr.inr.inl =>
    obtain ⟨named, notStep, inB⟩ := formatN_opcodes p hp
    simp only [decodeFormatN_error_iff, opc, named, notStep, inB, false_or, true_and, false_and, or_false]
  case inr.inr.inr =>
    simp only [unnamed_opcodes _ opc, true_or, iff_true]
    exact ⟨_, rfl⟩

theorem step_of_illegal {s : State} {w : CommandWord} {e : IllegalWord} (hc : choose s = .command w)
    (hd : decode w = .error e) : step s = .next (refuseIllegal (accepted s)) := by
  simp [step, execWord, hc, hd]

/-- Settles O4: the clauses are the decoder's four cases, and the step is what an illegal word does. -/
theorem illegalWordsChangeNothing : Obligations.IllegalWordsChangeNothing := by
  refine ⟨decode_error_iff, fun s w e hc hd => ⟨_, step_of_illegal hc hd, rfl, rfl, ?_⟩⟩
  simp [eventOf, hc, Event.isRefusal]

end Sys2Proof.Proofs
end

section
/-!
PROOF. The response of a command step (30_encoding.md R66, R70): every command is its own rule behind the guard of its class, and an
own rule answers OK with the command's datum, or FULL (PUSH), or EMPTY (POP).
-/

namespace Sys2Proof.Proofs

open Sys2Proof.Machine Sys2Proof.Claims

/-! ### A command as its own rule behind the guard (42_arbitration.md R150) -/

/-- The row of the guard table a command belongs to. -/
def classOf : Instr → CommandClass
  | .stepDot | .stepDash | .stepSpace | .flush => .fsm
  | .push _ | .pop | .isempty | .clear => .ring
  | .csenter => .csenter
  | .csexit => .csexit
  | .iret => .iret

/-- What a command does where the guard admits it. -/
def ownRule (i : Instr) (s : State) : Host.Outcome State Fault Refusal :=
  match i with
  | .stepDot => .next (feedSymbol s .dot)
  | .stepDash => .next (feedSymbol s .dash)
  | .stepSpace => .next (feedSymbol s .space)
  | .flush => .next (respond (setSt s .start) (.ok 0x00))
  | .push b => pushByte s b
  | .pop => popByte s
  | .isempty => .next (respond s (.ok (boolByte (isEmpty s))))
  | .clear => .next (respond (setRd (setWr s 0) 0) (.ok 0x00))
  | .csenter => .next (respond (setMask s true) (.ok 0x00))
  | .csexit => .next (respond (setMask s false) (.ok 0x00))
  | .iret => .next (respond (returnFromHandler s) (.ok 0x00))

theorem exec_eq_guarded (i : Instr) (s : State) : exec i s = guarded (classOf i) s (ownRule i s) := by cases i <;> rfl

/-- The printed guard table is the guard, column by column; the column (1, 1) does not exist. -/
theorem guardTable_eq_admits (i : Instr) {inh mask : Bool} (legal : ¬ (mask = true ∧ inh = true)) :
    guardTable i inh mask = admits (classOf i) inh mask := by
  match inh, mask with
  | false, false => cases i <;> rfl
  | false, true => cases i <;> rfl
  | true, false => cases i <;> rfl
  | true, true => exact absurd ⟨rfl, rfl⟩ legal

/-! ### What an own rule answers (30_encoding.md R66) -/

/-- The datum of an OK response: the byte a STEP emits, the byte a POP loads, ISEMPTY's answer, else `0x00`. -/
def okDatum (i : Instr) (s : State) : Byte :=
  match i with
  | .stepDot => (transition s.st .dot).2
  | .stepDash => (transition s.st .dash).2
  | .stepSpace => (transition s.st .space).2
  | .pop => slotByte s s.rd
  | .isempty => boolByte (isEmpty s)
  | .flush | .push _ | .clear | .csenter | .csexit | .iret => 0x00

/-- All that an own rule can answer. -/
theorem ownRule_answers {i : Instr} {s t : State} (h : ownRule i s = .next t) :
    t.out = okOut (okDatum i s) ∨ (t.out = .response .full ∧ ∃ b, i = .push b) ∨ (t.out = .response .empty ∧ i = .pop) := by
  cases i with
  | push b =>
    obtain ⟨-, hp⟩ | ⟨-, -, hp⟩ | ⟨-, -, hp⟩ := pushByte_cases s b <;> rw [ownRule, hp] at h <;> cases h
    · exact .inr (.inl ⟨rfl, b, rfl⟩)
    · exact .inl rfl
  | pop =>
    obtain ⟨-, hp⟩ | ⟨-, -, hp⟩ | ⟨-, -, hp⟩ := popByte_cases s <;> rw [ownRule, hp] at h <;> cases h
    · exact .inr (.inr ⟨rfl, rfl⟩)
    · exact .inl rfl
  | stepDot | stepDash | stepSpace | flush | isempty | clear | csenter | csexit | iret => cases h; exact .inl rfl

/-- An own rule stops nowhere while both cursors name slots. -/
theorem ownRule_next (i : Instr) {s : State} (cursors : CursorsInRange s) : ∃ t, ownRule i s = .next t := by
  obtain ⟨hwr, hrd⟩ := cursors
  cases i with
  | push b =>
    obtain ⟨-, hp⟩ | ⟨-, -, hp⟩ | ⟨-, noSlot, -⟩ := pushByte_cases s b
    · exact ⟨_, hp⟩
    · exact ⟨_, hp⟩
    · omega
  | pop =>
    obtain ⟨-, hp⟩ | ⟨-, -, hp⟩ | ⟨-, noSlot, -⟩ := popByte_cases s
    · exact ⟨_, hp⟩
    · exact ⟨_, hp⟩
    · omega
  | stepDot | stepDash | stepSpace | flush | isempty | clear | csenter | csexit | iret => exact ⟨_, rfl⟩

theorem okDatum_isempty (s : State) :
    okDatum .isempty s = 0x01 ∧ s.wr = s.rd ∨ okDatum .isempty s = 0x00 ∧ s.wr ≠ s.rd := by
  obtain same | different := eq_or_ne s.wr s.rd
  · exact .inl ⟨by simp [okDatum, boolByte, isEmpty, same], same⟩
  · exact .inr ⟨by simp [okDatum, boolByte, isEmpty, different], different⟩

theorem okDatum_stepOf (y : Symbol) (s : State) : okDatum (stepOf y) s = (transition s.st y).2 := by cases y <;> rfl

theorem okDatum_eq_zero {i : Instr} (s : State) (notIsempty : i ≠ .isempty) (notPop : i ≠ .pop) (notStep : ∀ y, i ≠ stepOf y) :
    okDatum i s = 0x00 := by
  cases i with
  | stepDot => exact absurd rfl (notStep .dot)
  | stepDash => exact absurd rfl (notStep .dash)
  | stepSpace => exact absurd rfl (notStep .space)
  | pop => exact absurd rfl notPop
  | isempty => exact absurd rfl notIsempty
  | flush | push _ | clear | csenter | csexit | iret => rfl

/-! ### The response word and the ports (30_encoding.md R66, R71) -/

theorem responseWord_ok (d : Byte) : responseWord (.ok d) = d.setWidth 11 := by
  rw [BitVec.setWidth_eq_append (by decide)]
  rfl

theorem pins_rw_of_response {t : State} {r : Response} (h : t.out = .response r) : (pins t).rw = some (responseWord r) := by
  simp [pins, h]

theorem step_of_grant {s : State} (hc : choose s = .grant) : step s = .next (takeGrant (passLines s)) := by
  simp [step, hc]

/-- A command answers GUARD, or what its own rule answers. -/
theorem exec_answers {i : Instr} {s t : State} (h : exec i s = .next t) :
    t.out = okOut (okDatum i s) ∨ (t.out = .response .full ∧ ∃ b, i = .push b) ∨ (t.out = .response .empty ∧ i = .pop) ∨
      t.out = .response .guard := by
  rw [exec_eq_guarded] at h
  obtain ⟨-, own⟩ | ⟨-, rfl⟩ := guarded_next h
  · obtain ok | full | empty := ownRule_answers own
    · exact .inl ok
    · exact .inr (.inl full)
    · exact .inr (.inr (.inl empty))
  · exact .inr (.inr (.inr rfl))

/-- Settles O53: the response is GUARD or what the command's own rule answers, and each datum is `okDatum`. -/
theorem responseWordsByCommand : Obligations.ResponseWordsByCommand := by
  refine ⟨responseWord_ok, rfl, rfl, rfl, rfl, ?illegal, ?command, ?grant⟩
  case illegal => exact fun s w e hc hd => ⟨_, step_of_illegal hc hd, rfl⟩
  case grant => exact fun s hc => ⟨_, step_of_grant hc, rfl, rfl⟩
  case command =>
    intro s t i h
    obtain ok | ⟨full, push⟩ | ⟨empty, pop⟩ | guard := exec_answers h
    · refine ⟨_, ok, pins_rw_of_response ok, nofun, nofun, nofun, ?_⟩
      rintro d ⟨⟩
      refine ⟨?_, ?_, ?_, okDatum_eq_zero s⟩
      · rintro rfl; exact okDatum_isempty s
      · rintro rfl; rfl
      · rintro y rfl; exact okDatum_stepOf y s
    · exact ⟨_, full, pins_rw_of_response full, nofun, fun _ => push, nofun, nofun⟩
    · exact ⟨_, empty, pins_rw_of_response empty, nofun, nofun, fun _ => pop, nofun⟩
    · exact ⟨_, guard, pins_rw_of_response guard, nofun, nofun, nofun, nofun⟩

/-! ### The order of checks (30_encoding.md R70) -/

theorem step_of_command {s : State} {w : CommandWord} {i : Instr} (hc : choose s = .command w) (hd : decode w = .ok i) :
    step s = exec i (accepted s) := by
  simp [step, execWord, hc, hd]

/-- Accepting a word leaves the guard's decision as the table prints it for the state before. -/
theorem admits_accepted (i : Instr) {s : State} (legal : arbitrationLegal s) :
    admits (classOf i) (accepted s).inh (accepted s).mask = guardTable i s.inh s.mask := by
  rw [accepted_inh, accepted_mask, guardTable_eq_admits i legal]

theorem cursorsInRange_accepted {s : State} (cursors : CursorsInRange s) : CursorsInRange (accepted s) := by
  simpa [CursorsInRange] using cursors

/-- Settles O55: an illegal word stops at the decoder, a refused command at the guard, and an admitted one runs its own rule. -/
theorem checksRunInOrder : Obligations.ChecksRunInOrder := by
  refine fun s w hc legal cursors => ⟨fun e hd => step_of_illegal hc hd, fun i hd refused => ?_, fun i hd admitted => ?_⟩
  · rw [step_of_command hc hd, exec_eq_guarded, guarded_not_admitted _ ((admits_accepted i legal).trans refused)]
    rfl
  · obtain ⟨t, own⟩ := ownRule_next i (cursorsInRange_accepted cursors)
    refine ⟨t, ?_, ?_⟩
    · rw [step_of_command hc hd, exec_eq_guarded, guarded_admitted _ ((admits_accepted i legal).trans admitted), own]
    · obtain ok | ⟨full, -⟩ | ⟨empty, -⟩ := ownRule_answers own
      · exact .inl ⟨_, ok⟩
      · exact .inr (.inl full)
      · exact .inr (.inr empty)

end Sys2Proof.Proofs
end

section
/-!
PROOF. The decoder FSM's commands and the rows of T (40_decoder_fsm.md R84 to R118): what an FSM command does in each context, a row
of the machine from the entries of the table, and the statements assembled from these.
-/

namespace Sys2Proof.Proofs

open Sys2Proof.Machine Sys2Proof.Claims

/-! ### FSM commands in the two contexts (42_arbitration.md R150) -/

theorem exec_of_fsm_foreground {i : Instr} {s : State} (fsm : classOf i = .fsm) (foreground : s.inh = false) :
    exec i s = ownRule i s := by
  rw [exec_eq_guarded, fsm]
  exact guarded_admitted _ (by simp [admits, foreground])

theorem exec_of_fsm_handler {i : Instr} {s : State} (fsm : classOf i = .fsm) (handler : s.inh = true) :
    exec i s = .next (respond s .guard) := by
  rw [exec_eq_guarded, fsm]
  exact guarded_not_admitted _ (by simp [admits, handler])

theorem classOf_stepOf (y : Symbol) : classOf (stepOf y) = .fsm := by cases y <;> rfl

theorem ownRule_stepOf (y : Symbol) (s : State) : ownRule (stepOf y) s = .next (feedSymbol s y) := by cases y <;> rfl

theorem exec_stepOf_foreground (y : Symbol) {s : State} (foreground : s.inh = false) :
    exec (stepOf y) s = .next (feedSymbol s y) := by
  rw [exec_of_fsm_foreground (classOf_stepOf y) foreground, ownRule_stepOf]

/-- Settles O16: FLUSH is an FSM command whose own rule sets `st` to Start. -/
theorem flushReturnsToStart : Obligations.FlushReturnsToStart :=
  ⟨by decide, fun _ => ⟨exec_of_fsm_foreground (i := .flush) rfl, exec_of_fsm_handler (i := .flush) rfl⟩⟩

/-! ### Rows of the machine (40_decoder_fsm.md R84 to R113) -/

/-- A STEP command at a node of the tree does what the table's entry for that node says. -/
theorem exec_stepOf_of_entry {y : Symbol} {node : DecoderState} {r : DecoderState × Byte} (entry : transition node y = r)
    {s : State} (atNode : s.st = node) (foreground : s.inh = false) :
    exec (stepOf y) s = .next { s with st := r.1, out := okOut r.2 } := by
  subst atNode entry
  exact exec_stepOf_foreground y foreground

/-- A row holds of every foreground state once the node's code, the walk along its marks and its three entries of T are right. -/
theorem rowIs_of_entries {code : BitVec 5} {marks : List Symbol} {node : DecoderState} {dot dash space : DecoderState × Byte}
    (h : stateCode node = code ∧
      walkTable invalidNext digPrefixSpaceByte .start marks = (node, List.replicate marks.length 0x00) ∧
      transition node .dot = dot ∧ transition node .dash = dash ∧ transition node .space = space) :
    RowIs code marks node dot dash space := by
  obtain ⟨codeIs, walk, atDot, atDash, atSpace⟩ := h
  refine ⟨codeIs, walk, fun s atNode foreground => ⟨?_, ?_, ?_⟩⟩
  · exact exec_stepOf_of_entry atDot atNode foreground
  · exact exec_stepOf_of_entry atDash atNode foreground
  · exact exec_stepOf_of_entry atSpace atNode foreground

/-- Settles O13: nine rows, each from its entries. -/
theorem rowsStartToU : Obligations.RowsStartToU := by
  refine ⟨?start, ?e, ?t, ?i, ?a, ?n, ?m, ?s, ?u⟩ <;> exact rowIs_of_entries (by decide)

/-- Settles O14: six rows, each from its entries. -/
theorem rowsWToH : Obligations.RowsWToH := by
  refine ⟨?w, ?d, ?k, ?g, ?o, ?h⟩ <;> exact rowIs_of_entries (by decide)

end Sys2Proof.Proofs
end

section
/-!
PROOF. The ring buffer's commands (41_ring_buffer.md R130 to R138): the guard of the ring class in both directions, what
PUSH and POP do under each condition on the cursors, the repetition of a command that changes nothing, and the statements assembled from
these.
-/

namespace Sys2Proof.Proofs

open Sys2Proof.Machine Sys2Proof.Claims

/-! ### Ring commands behind the guard (41_ring_buffer.md R130) -/

theorem exec_of_ring_admitted {i : Instr} {s : State} (ring : classOf i = .ring) (admitted : ringAdmitted s) :
    exec i s = ownRule i s := by
  rw [exec_eq_guarded, ring]
  exact guarded_admitted _ (by simpa [admits] using admitted)

theorem exec_of_ring_not_admitted {i : Instr} {s : State} (ring : classOf i = .ring) (foreground : s.inh = false)
    (outside : s.mask = false) : exec i s = .next (respond s .guard) := by
  rw [exec_eq_guarded, ring]
  exact guarded_not_admitted _ (by simp [admits, foreground, outside])

/-! ### PUSH (41_ring_buffer.md R131) -/

/-- The state after a PUSH that stores `b`. -/
def pushed (s : State) (b : Byte) : State :=
  respond (setWr { s with mem := Memory.store s.mem (storeSlot s) b } (nextCursor s s.wr)) (.ok 0x00)

theorem slotByte_pushed (s : State) (b : Byte) (a : Nat) :
    slotByte (pushed s b) a = if a = storeSlot s then b else slotByte s a := by
  rw [pushed, respond_slotByte, setWr_slotByte, slotByte_store]

theorem exec_push_of_full {s : State} (b : Byte) (admitted : ringAdmitted s) (full : (s.wr + 1) % 2 ^ s.k = s.rd) :
    exec (.push b) s = .next (respond s .full) := by
  rw [exec_of_ring_admitted rfl admitted]
  exact if_pos ((isFull_iff s).2 full)

theorem exec_push_of_not_full {s : State} (b : Byte) (admitted : ringAdmitted s) (room : (s.wr + 1) % 2 ^ s.k ≠ s.rd)
    (cursor : s.wr < 2 ^ s.k) : exec (.push b) s = .next (pushed s b) := by
  rw [exec_of_ring_admitted rfl admitted]
  obtain ⟨full, -⟩ | ⟨-, -, push⟩ | ⟨-, noSlot, -⟩ := pushByte_cases s b
  · exact absurd ((isFull_iff s).1 full) room
  · exact push
  · exact absurd cursor (Nat.not_lt.2 noSlot)

theorem encode_push (b : Byte) : encode (.push b) = 0x400 + b.setWidth 12 := by
  have := b.isLt
  apply BitVec.eq_of_toNat_eq
  rw [Laws.encode_push_toNat, BitVec.toNat_add, BitVec.toNat_setWidth]
  change _ = (0x400 + b.toNat % 2 ^ 12) % 2 ^ 12
  omega

/-- Settles O25: the guard, then the two arms of PUSH's own rule. -/
theorem pushStoresAndAdvances : Obligations.PushStoresAndAdvances := by
  refine fun s b => ⟨encode_push b, rfl, exec_of_ring_not_admitted rfl, exec_push_of_full b, fun admitted room cursor => ?_⟩
  refine ⟨pushed s b, exec_push_of_not_full b admitted room cursor, rfl, ?_, fun a other => ?_⟩
  · rw [slotByte_pushed, if_pos rfl]
  · rw [slotByte_pushed, if_neg other]

/-! ### POP (41_ring_buffer.md R132) -/

theorem exec_pop_of_empty {s : State} (admitted : ringAdmitted s) (empty : s.wr = s.rd) :
    exec .pop s = .next (respond s .empty) := by
  rw [exec_of_ring_admitted rfl admitted]
  exact if_pos ((Machine.isEmpty_iff s).2 empty)

theorem exec_pop_of_not_empty {s : State} (admitted : ringAdmitted s) (held : s.wr ≠ s.rd) (cursor : s.rd < 2 ^ s.k) :
    exec .pop s = .next (respond (setRd s (nextCursor s s.rd)) (.ok (slotByte s (loadSlot s)))) := by
  rw [exec_of_ring_admitted rfl admitted]
  obtain ⟨empty, -⟩ | ⟨-, -, pop⟩ | ⟨-, noSlot, -⟩ := popByte_cases s
  · exact absurd ((Machine.isEmpty_iff s).1 empty) held
  · exact pop
  · exact absurd cursor (Nat.not_lt.2 noSlot)

/-- Settles O26: the guard, then the two arms of POP's own rule. -/
theorem popReturnsAndAdvances : Obligations.PopReturnsAndAdvances :=
  ⟨by decide, fun _ => ⟨rfl, exec_of_ring_not_admitted rfl, exec_pop_of_empty, exec_pop_of_not_empty⟩⟩

/-! ### ISEMPTY and CLEAR (41_ring_buffer.md R133, R134) -/

theorem boolByte_isEmpty (s : State) : boolByte (isEmpty s) = if s.wr = s.rd then 0x01 else 0x00 := by
  simp only [boolByte, Machine.isEmpty_iff]

/-- Settles O27: the guard, then ISEMPTY's own rule, whose datum is the comparison of the cursors. -/
theorem isemptyReportsEmptiness : Obligations.IsemptyReportsEmptiness := by
  refine ⟨by decide, fun s => ⟨exec_of_ring_not_admitted rfl, fun admitted => ?_⟩⟩
  rw [exec_of_ring_admitted rfl admitted, ownRule, boolByte_isEmpty]
  rfl

/-- Settles O28: the guard, then CLEAR's own rule, which has one arm. -/
theorem clearZeroesCursors : Obligations.ClearZeroesCursors :=
  ⟨by decide, fun _ => ⟨exec_of_ring_not_admitted rfl, exec_of_ring_admitted (i := .clear) rfl⟩⟩

/-! ### Repeating a failure (41_ring_buffer.md R138) -/

/-- A command that answers `r` and changes nothing, whatever the previous response was, may be repeated any number of times. -/
theorem runCommands_replicate_of_unchanged {i : Instr} {r : Response} {s : State}
    (unchanged : ∀ o, exec i { s with out := o } = .next (respond s r)) (n : Nat) :
    ∃ t, runCommands (List.replicate n i) s = some (t, List.replicate n (.response r)) ∧ t = { s with out := t.out } := by
  induction n generalizing s with
  | zero => exact ⟨s, rfl, rfl⟩
  | succ n ih =>
    obtain ⟨t, run, same⟩ := ih (s := respond s r) unchanged
    refine ⟨t, ?_, same⟩
    rw [List.replicate_succ, runCommands_cons (unchanged s.out), run]
    rfl

/-- Settles O29: a FULL PUSH and an EMPTY POP change nothing, and neither condition reads the previous response. -/
theorem failuresRepeatUnchanged : Obligations.FailuresRepeatUnchanged := by
  refine fun n s admitted => ⟨fun b full => ?full, fun empty => ?empty⟩
  case full =>
    exact runCommands_replicate_of_unchanged (fun o => exec_push_of_full (s := { s with out := o }) b admitted full) n
  case empty =>
    exact runCommands_replicate_of_unchanged (fun o => exec_pop_of_empty (s := { s with out := o }) admitted empty) n

end Sys2Proof.Proofs
end

section
/-!
PROOF. The arbitration table (42_arbitration.md R150 to R152): what the printed guard table says of `exec` in both directions, when the
next step is the grant, and the statements assembled from these.
-/

namespace Sys2Proof.Proofs

open Sys2Proof.Machine Sys2Proof.Claims

/-! ### The guard table (42_arbitration.md R150) -/

theorem exec_of_guardTable_true {i : Instr} {s : State} (legal : arbitrationLegal s) (admitted : guardTable i s.inh s.mask = true) :
    exec i s = ownRule i s := by
  rw [exec_eq_guarded]
  exact guarded_admitted _ ((guardTable_eq_admits i legal).symm.trans admitted)

theorem exec_of_guardTable_false {i : Instr} {s : State} (legal : arbitrationLegal s) (refused : guardTable i s.inh s.mask = false) :
    exec i s = .next (respond s .guard) := by
  rw [exec_eq_guarded]
  exact guarded_not_admitted _ ((guardTable_eq_admits i legal).symm.trans refused)

/-- GUARD is the guard's answer only. -/
theorem ownRule_out_ne_guard {i : Instr} {s t : State} (own : ownRule i s = .next t) : t.out ≠ .response .guard := by
  obtain ok | ⟨full, -⟩ | ⟨empty, -⟩ := ownRule_answers own
  · simp [ok]
  · simp [full]
  · simp [empty]

/-- Settles O36: the table decides between the GUARD response and the command's own rule, which never answers GUARD. -/
theorem guardTableHolds : Obligations.GuardTableHolds := by
  refine fun s i legal cursors => ⟨exec_of_guardTable_false legal, fun admitted => ?_⟩
  obtain ⟨t, own⟩ := ownRule_next i cursors
  exact ⟨t, (exec_of_guardTable_true legal admitted).trans own, ownRule_out_ne_guard own⟩

/-! ### CSEXIT and the grant after it (42_arbitration.md R152, 60_exceptions.md R167) -/

/-- A request outside critical sections and handlers is granted at once, unless a reset is asserted. -/
theorem choose_of_request {s : State} (noReset : (currentLines s).rst = false) (request : (currentLines s).irq = true)
    (outside : s.mask = false) (foreground : s.inh = false) : choose s = .grant := by
  simp [choose, noReset, request, outside, foreground]

theorem exec_csexit_in_section {s : State} (foreground : s.inh = false) (inside : s.mask = true) :
    exec .csexit s = .next (respond (setMask s false) (.ok 0x00)) := by
  rw [exec_eq_guarded]
  exact guarded_admitted _ (by simp [classOf, admits, foreground, inside])

theorem exec_csexit_elsewhere {s : State} (elsewhere : s.inh = true ∨ s.mask = false) :
    exec .csexit s = .next (respond s .guard) := by
  rw [exec_eq_guarded]
  refine guarded_not_admitted _ ?_
  obtain handler | outside := elsewhere
  · simp [classOf, admits, handler]
  · simp [classOf, admits, outside]

/-- Settles O38: the guard, then CSEXIT's own rule, whose state meets the condition of the grant while a request is up. -/
theorem csexitClosesSection : Obligations.CsexitClosesSection := by
  refine ⟨by decide, fun s => ⟨fun foreground inside => ⟨?effect, fun noReset request => ?grant⟩, exec_csexit_elsewhere⟩⟩
  case effect => exact exec_csexit_in_section foreground inside
  case grant => exact choose_of_request noReset request rfl foreground

end Sys2Proof.Proofs
end

section
/-!
PROOF. The interrupt grant (60_exceptions.md R165): when the first of the lines presented asks for it, and what its step does.
-/

namespace Sys2Proof.Proofs

open Sys2Proof.Machine Sys2Proof.Claims

/-! ### The lines of the coming steps -/

theorem currentLines_of_lines {s : State} {l : Lines} {ls : List Lines} (first : s.lines = l :: ls) : currentLines s = l := by
  rw [currentLines, first]

theorem passLines_of_lines {s : State} {l : Lines} {ls : List Lines} (first : s.lines = l :: ls) :
    passLines s = { s with lines := ls } := by
  rw [passLines, first, List.tail_cons]

/-! ### The grant (60_exceptions.md R165, R167 clause 2) -/

theorem pins_rw_takeGrant (s : State) : (pins (takeGrant s)).rw = none := rfl

theorem pins_iack_takeGrant (s : State) : (pins (takeGrant s)).iack = 1 := rfl

/-- A grant writes `inh`, the ports and nothing else; neither context's words are among what it writes, so a word presented waits. -/
theorem takeGrant_passLines_of_lines {s : State} {l : Lines} {ls : List Lines} (first : s.lines = l :: ls) :
    takeGrant (passLines s) = { s with inh := true, lines := ls, out := .grantAck } := by
  rw [passLines_of_lines first, takeGrant]

/-- Settles O8: the condition of the grant makes it the choice, and the rules of `takeGrant` and `passLines` say the rest. -/
theorem grantEntersHandler : Obligations.GrantEntersHandler := by
  intro s l ls first noReset request outside foreground
  have current : currentLines s = l := currentLines_of_lines first
  have granted : choose s = .grant :=
    choose_of_request (current ▸ noReset) (current ▸ request) outside foreground
  refine ⟨takeGrant (passLines s), step_of_grant granted, takeGrant_passLines_of_lines first, pins_iack_takeGrant _,
    pins_rw_takeGrant _, fun a => ?slots⟩
  case slots => rw [takeGrant_slotByte, passLines_slotByte]

end Sys2Proof.Proofs
end

section
/-!
PROOF. What a command and a step can do, said once. `Effect i s t` has one constructor for each way a command can end in a next
state; `effect_of_exec` and `exec_of_effect` tie it to `exec`. Every frame and invariant below is a case analysis of it.
-/

namespace Sys2Proof.Proofs

open Sys2Proof.Machine Sys2Proof.Claims

/-! ### PUSH's and POP's own rules as equations (41_ring_buffer.md R131, R132) -/

/-- The state after a POP that loads. -/
def popped (s : State) : State :=
  respond (setRd s (nextCursor s s.rd)) (.ok (slotByte s (loadSlot s)))

theorem pushByte_eq (s : State) (b : Byte) : pushByte s b =
    if isFull s then .next (respond s .full) else if s.wr < slots s then .next (pushed s b) else .fault .noSuchSlot := by
  obtain ⟨full, h⟩ | ⟨room, slot, h⟩ | ⟨room, noSlot, h⟩ := pushByte_cases s b
  · rw [h, if_pos full]
  · rw [h, if_neg (by simp [room]), if_pos slot]; rfl
  · rw [h, if_neg (by simp [room]), if_neg (by omega)]

theorem popByte_eq (s : State) : popByte s =
    if isEmpty s then .next (respond s .empty) else if s.rd < slots s then .next (popped s) else .fault .noSuchSlot := by
  obtain ⟨empty, h⟩ | ⟨held, slot, h⟩ | ⟨held, noSlot, h⟩ := popByte_cases s
  · rw [h, if_pos empty]
  · rw [h, if_neg (by simp [held]), if_pos slot]; rfl
  · rw [h, if_neg (by simp [held]), if_neg (by omega)]

@[simp] theorem pushed_mem (s : State) (b : Byte) : (pushed s b).mem = Memory.store s.mem s.wr b := rfl
@[simp] theorem pushed_wr (s : State) (b : Byte) : (pushed s b).wr = nextCursor s s.wr := rfl
@[simp] theorem pushed_rd (s : State) (b : Byte) : (pushed s b).rd = s.rd := rfl
@[simp] theorem pushed_out (s : State) (b : Byte) : (pushed s b).out = okOut 0x00 := rfl
@[simp] theorem pushed_slots (s : State) (b : Byte) : slots (pushed s b) = slots s := rfl

@[simp] theorem popped_wr (s : State) : (popped s).wr = s.wr := rfl
@[simp] theorem popped_rd (s : State) : (popped s).rd = nextCursor s s.rd := rfl
@[simp] theorem popped_out (s : State) : (popped s).out = okOut (slotByte s s.rd) := rfl
@[simp] theorem popped_slots (s : State) : slots (popped s) = slots s := rfl

/-! ### Every way a command can end (40_decoder_fsm.md R115 to R118, 41_ring_buffer.md R130 to R134, 42_arbitration.md R150 to R153) -/

/-- `Effect i s t`: command `i` takes `s` to `t`, either refused by the guard or by one arm of its own rule. -/
inductive Effect : Instr → State → State → Prop
  | refused {i : Instr} {s : State} (notAdmitted : admits (classOf i) s.inh s.mask = false) : Effect i s (respond s .guard)
  | stepDot {s : State} (foreground : s.inh = false) : Effect .stepDot s (feedSymbol s .dot)
  | stepDash {s : State} (foreground : s.inh = false) : Effect .stepDash s (feedSymbol s .dash)
  | stepSpace {s : State} (foreground : s.inh = false) : Effect .stepSpace s (feedSymbol s .space)
  | flush {s : State} (foreground : s.inh = false) : Effect .flush s (respond (setSt s .start) (.ok 0x00))
  | pushFull {s : State} {b : Byte} (admitted : ringAdmitted s) (full : isFull s = true) :
      Effect (.push b) s (respond s .full)
  | pushStores {s : State} {b : Byte} (admitted : ringAdmitted s) (room : isFull s = false) (slot : s.wr < slots s) :
      Effect (.push b) s (pushed s b)
  | popEmpty {s : State} (admitted : ringAdmitted s) (empty : isEmpty s = true) : Effect .pop s (respond s .empty)
  | popLoads {s : State} (admitted : ringAdmitted s) (held : isEmpty s = false) (slot : s.rd < slots s) :
      Effect .pop s (popped s)
  | isempty {s : State} (admitted : ringAdmitted s) : Effect .isempty s (respond s (.ok (boolByte (isEmpty s))))
  | clear {s : State} (admitted : ringAdmitted s) : Effect .clear s (respond (setRd (setWr s 0) 0) (.ok 0x00))
  | csenter {s : State} (foreground : s.inh = false) (outside : s.mask = false) :
      Effect .csenter s (respond (setMask s true) (.ok 0x00))
  | csexit {s : State} (foreground : s.inh = false) (inside : s.mask = true) :
      Effect .csexit s (respond (setMask s false) (.ok 0x00))
  | iret {s : State} (handler : s.inh = true) : Effect .iret s (respond (returnFromHandler s) (.ok 0x00))

/-- Where the guard admits a command, its own rule's next state is one of `Effect`'s. -/
theorem effect_of_ownRule {i : Instr} {s t : State} (admitted : admits (classOf i) s.inh s.mask = true)
    (own : ownRule i s = .next t) : Effect i s t := by
  cases i with
  | push b =>
    have ring : ringAdmitted s := by simpa [classOf, admits] using admitted
    obtain ⟨full, hp⟩ | ⟨room, slot, hp⟩ | ⟨-, -, hp⟩ := pushByte_cases s b <;> rw [ownRule, hp] at own <;> cases own
    · exact .pushFull ring full
    · exact .pushStores ring room slot
  | pop =>
    have ring : ringAdmitted s := by simpa [classOf, admits] using admitted
    obtain ⟨empty, hp⟩ | ⟨held, slot, hp⟩ | ⟨-, -, hp⟩ := popByte_cases s <;> rw [ownRule, hp] at own <;> cases own
    · exact .popEmpty ring empty
    · exact .popLoads ring held slot
  | stepDot => cases own; exact .stepDot (by simpa [classOf, admits] using admitted)
  | stepDash => cases own; exact .stepDash (by simpa [classOf, admits] using admitted)
  | stepSpace => cases own; exact .stepSpace (by simpa [classOf, admits] using admitted)
  | flush => cases own; exact .flush (by simpa [classOf, admits] using admitted)
  | isempty => cases own; exact .isempty (by simpa [classOf, admits] using admitted)
  | clear => cases own; exact .clear (by simpa [classOf, admits] using admitted)
  | csenter =>
    cases own
    obtain ⟨foreground, outside⟩ : s.inh = false ∧ s.mask = false := by simpa [classOf, admits] using admitted
    exact .csenter foreground outside
  | csexit =>
    cases own
    obtain ⟨foreground, inside⟩ : s.inh = false ∧ s.mask = true := by simpa [classOf, admits] using admitted
    exact .csexit foreground inside
  | iret => cases own; exact .iret (by simpa [classOf, admits] using admitted)

theorem effect_of_exec {i : Instr} {s t : State} (h : exec i s = .next t) : Effect i s t := by
  rw [exec_eq_guarded] at h
  obtain ⟨admitted, own⟩ | ⟨notAdmitted, rfl⟩ := guarded_next h
  · exact effect_of_ownRule admitted own
  · exact .refused notAdmitted

/-! ### CSENTER and IRET (42_arbitration.md R151, R153) -/

theorem exec_csenter_outside {s : State} (foreground : s.inh = false) (outside : s.mask = false) :
    exec .csenter s = .next (respond (setMask s true) (.ok 0x00)) := by
  rw [exec_eq_guarded]
  exact guarded_admitted _ (by simp [classOf, admits, foreground, outside])

theorem exec_csenter_elsewhere {s : State} (elsewhere : s.inh = true ∨ s.mask = true) :
    exec .csenter s = .next (respond s .guard) := by
  rw [exec_eq_guarded]
  refine guarded_not_admitted _ ?_
  obtain handler | inside := elsewhere
  · simp [classOf, admits, handler]
  · simp [classOf, admits, inside]

theorem exec_iret_in_handler {s : State} (handler : s.inh = true) :
    exec .iret s = .next (respond (returnFromHandler s) (.ok 0x00)) := by
  rw [exec_eq_guarded]
  exact guarded_admitted _ handler

theorem exec_iret_in_foreground {s : State} (foreground : s.inh = false) : exec .iret s = .next (respond s .guard) := by
  rw [exec_eq_guarded]
  exact guarded_not_admitted _ foreground

/-- The effects are all real: each one is what `exec` does. -/
theorem exec_of_effect {i : Instr} {s t : State} (h : Effect i s t) : exec i s = .next t := by
  cases h with
  | refused notAdmitted => rw [exec_eq_guarded, guarded_not_admitted _ notAdmitted]
  | stepDot foreground => exact exec_stepOf_foreground .dot foreground
  | stepDash foreground => exact exec_stepOf_foreground .dash foreground
  | stepSpace foreground => exact exec_stepOf_foreground .space foreground
  | flush foreground => exact exec_of_fsm_foreground (i := .flush) rfl foreground
  | pushFull admitted full => exact exec_push_of_full _ admitted ((isFull_iff s).1 full)
  | pushStores admitted room slot =>
    exact exec_push_of_not_full _ admitted (fun full => by simp [(isFull_iff s).2 full] at room) slot
  | popEmpty admitted empty => exact exec_pop_of_empty admitted ((Machine.isEmpty_iff s).1 empty)
  | popLoads admitted held slot =>
    exact exec_pop_of_not_empty admitted (fun empty => by simp [(Machine.isEmpty_iff s).2 empty] at held) slot
  | isempty admitted => exact exec_of_ring_admitted (i := .isempty) rfl admitted
  | clear admitted => exact exec_of_ring_admitted (i := .clear) rfl admitted
  | csenter foreground outside => exact exec_csenter_outside foreground outside
  | csexit foreground inside => exact exec_csexit_in_section foreground inside
  | iret handler => exact exec_iret_in_handler handler

/-! ### What each command leaves unchanged -/

namespace Effect

variable {i : Instr} {s t : State}

/-- No command writes the parameter, the environment's inputs or the index of free bytes. -/
theorem inputs_unchanged (h : Effect i s t) :
    t = { s with st := t.st, mem := t.mem, wr := t.wr, rd := t.rd, mask := t.mask, inh := t.inh, out := t.out } := by
  cases h <;> rfl

theorem fsm_frame (h : Effect i s t) (fsm : i ∈ fsmCommands) : t = { s with st := t.st, out := t.out } := by
  cases h with
  | refused | stepDot | stepDash | stepSpace | flush => rfl
  | pushFull | pushStores | popEmpty | popLoads | isempty | clear | csenter | csexit | iret => simp [fsmCommands] at fsm

theorem arbitration_frame (h : Effect i s t) (arbitration : i ∈ arbitrationCommands) :
    t = { s with mask := t.mask, inh := t.inh, out := t.out } := by
  cases h with
  | refused | csenter | csexit | iret => rfl
  | stepDot | stepDash | stepSpace | flush | pushFull | pushStores | popEmpty | popLoads | isempty | clear =>
    simp [arbitrationCommands] at arbitration

theorem push_frame {b : Byte} (h : Effect (.push b) s t) : t = { s with mem := t.mem, wr := t.wr, out := t.out } := by
  cases h <;> rfl

theorem pop_frame (h : Effect .pop s t) : t = { s with rd := t.rd, out := t.out } := by
  cases h <;> rfl

theorem isempty_frame (h : Effect .isempty s t) : t = { s with out := t.out } := by
  cases h <;> rfl

theorem clear_frame (h : Effect .clear s t) : t = { s with wr := t.wr, rd := t.rd, out := t.out } := by
  cases h <;> rfl

/-! ### Which command writes each of the six elements (10_state.md R22 to R27) -/

theorem writes_st (h : Effect i s t) (changed : t.st ≠ s.st) : i ∈ fsmCommands := by
  cases h with
  | stepDot | stepDash | stepSpace | flush => decide
  | refused | pushFull | pushStores | popEmpty | popLoads | isempty | clear | csenter | csexit | iret =>
    exact absurd rfl changed

theorem writes_mem (h : Effect i s t) (changed : t.mem ≠ s.mem) : ∃ b, i = .push b := by
  cases h with
  | pushStores => exact ⟨_, rfl⟩
  | refused | stepDot | stepDash | stepSpace | flush | pushFull | popEmpty | popLoads | isempty | clear | csenter | csexit
  | iret => exact absurd rfl changed

theorem writes_wr (h : Effect i s t) (changed : t.wr ≠ s.wr) : i = .clear ∨ ∃ b, i = .push b := by
  cases h with
  | clear => exact .inl rfl
  | pushStores => exact .inr ⟨_, rfl⟩
  | refused | stepDot | stepDash | stepSpace | flush | pushFull | popEmpty | popLoads | isempty | csenter | csexit | iret =>
    exact absurd rfl changed

theorem writes_rd (h : Effect i s t) (changed : t.rd ≠ s.rd) : i ∈ [Instr.pop, .clear] := by
  cases h with
  | popLoads | clear => decide
  | refused | stepDot | stepDash | stepSpace | flush | pushFull | pushStores | popEmpty | isempty | csenter | csexit | iret =>
    exact absurd rfl changed

theorem writes_mask (h : Effect i s t) (changed : t.mask ≠ s.mask) :
    (t.mask = true ∧ i = .csenter) ∨ (t.mask = false ∧ i = .csexit) := by
  cases h with
  | csenter => exact .inl ⟨rfl, rfl⟩
  | csexit => exact .inr ⟨rfl, rfl⟩
  | refused | stepDot | stepDash | stepSpace | flush | pushFull | pushStores | popEmpty | popLoads | isempty | clear | iret =>
    exact absurd rfl changed

theorem writes_inh (h : Effect i s t) (changed : t.inh ≠ s.inh) : t.inh = false ∧ i = .iret := by
  cases h with
  | iret => exact ⟨rfl, rfl⟩
  | refused | stepDot | stepDash | stepSpace | flush | pushFull | pushStores | popEmpty | popLoads | isempty | clear | csenter
  | csexit => exact absurd rfl changed

end Effect

/-! ### Frames of the three groups of commands -/

/-- A frame that names neither `mem` nor the index of free bytes keeps every slot's byte. -/
theorem slotByte_congr {s t : State} (mem : t.mem = s.mem) (index : t.resetCount = s.resetCount) (a : Nat) :
    slotByte t a = slotByte s a := by
  rw [slotByte, slotByte, mem, index]

/-- Settles O50: one frame of the four commands' effects. -/
theorem fsmCommandsFrame : Obligations.FsmCommandsFrame := by
  intro s t i fsm h
  have frame := (effect_of_exec h).fsm_frame fsm
  exact ⟨frame, slotByte_congr (congrArg (·.mem) frame) (congrArg (·.resetCount) frame)⟩

/-- A PUSH leaves every slot but the one at the write cursor. -/
theorem slotByte_of_push {s t : State} {b : Byte} (h : Effect (.push b) s t) {a : Nat} (other : a ≠ storeSlot s) :
    slotByte t a = slotByte s a := by
  cases h with
  | refused | pushFull => rfl
  | pushStores => rw [slotByte_pushed, if_neg other]

/-- Settles O51: one frame for each of the four commands. -/
theorem ringCommandsFrame : Obligations.RingCommandsFrame := by
  refine fun s t => ⟨fun b h => ?push, fun h => ?pop, fun h => ?isempty, fun h => ?clear⟩
  case push => exact ⟨(effect_of_exec h).push_frame, fun a => slotByte_of_push (effect_of_exec h)⟩
  case pop =>
    have frame := (effect_of_exec h).pop_frame
    exact ⟨frame, slotByte_congr (congrArg (·.mem) frame) (congrArg (·.resetCount) frame)⟩
  case isempty =>
    have frame := (effect_of_exec h).isempty_frame
    exact ⟨frame, slotByte_congr (congrArg (·.mem) frame) (congrArg (·.resetCount) frame)⟩
  case clear =>
    have frame := (effect_of_exec h).clear_frame
    exact ⟨frame, slotByte_congr (congrArg (·.mem) frame) (congrArg (·.resetCount) frame)⟩

/-- Settles O52: the common frame, and which of the two bits each command writes. -/
theorem arbitrationCommandsFrame : Obligations.ArbitrationCommandsFrame := by
  intro s t i arbitration h
  have effect := effect_of_exec h
  have frame := effect.arbitration_frame arbitration
  refine ⟨frame, fun isIret => ?mask, fun notIret => ?inh, ?slots⟩
  case mask =>
    by_contra changed
    obtain ⟨-, rfl⟩ | ⟨-, rfl⟩ := effect.writes_mask changed <;> cases isIret
  case inh =>
    by_contra changed
    exact notIret (effect.writes_inh changed).2
  case slots => exact slotByte_congr (congrArg (·.mem) frame) (congrArg (·.resetCount) frame)

/-! ### What a step can do (60_exceptions.md R167) -/

/-- All that a step can do, with a command's effect. -/
theorem step_next {s t : State} (h : step s = .next t) :
    (choose s = .reset ∧ t = performReset (passLines s)) ∨
    (choose s = .grant ∧ t = takeGrant (passLines s)) ∨
    (∃ w i, choose s = .command w ∧ decode w = .ok i ∧ Effect i (accepted s) t) ∨
    (∃ w e, choose s = .command w ∧ decode w = .error e ∧ t = refuseIllegal (accepted s)) ∨
    (choose s = .idle ∧ t = idle (passLines s)) := by
  obtain ⟨hc, hs⟩ | ⟨hc, hs⟩ | ⟨w, i, hc, hd, hs⟩ | ⟨w, e, hc, hd, hs⟩ | ⟨hc, hs⟩ := step_cases s <;> rw [hs] at h
  · cases h; exact .inl ⟨hc, rfl⟩
  · cases h; exact .inr (.inl ⟨hc, rfl⟩)
  · exact .inr (.inr (.inl ⟨w, i, hc, hd, effect_of_exec h⟩))
  · cases h; exact .inr (.inr (.inr (.inl ⟨w, e, hc, hd, rfl⟩)))
  · cases h; exact .inr (.inr (.inr (.inr ⟨hc, rfl⟩)))

/-- The grant is chosen only outside critical sections and handlers. -/
theorem outside_of_grant {s : State} (granted : choose s = .grant) : s.mask = false ∧ s.inh = false := by
  obtain ⟨-, hc⟩ | ⟨-, -, outside, foreground, -⟩ | ⟨-, -, ⟨w, -, hc⟩ | ⟨-, hc⟩⟩ := choose_cases s
  · rw [hc] at granted; cases granted
  · exact ⟨outside, foreground⟩
  · rw [hc] at granted; cases granted
  · rw [hc] at granted; cases granted

/-- Settles O9: a reset, a grant, or the command that writes the element. -/
theorem stateWrittenOnlyByItsEvents : Obligations.StateWrittenOnlyByItsEvents := by
  intro s t h
  obtain ⟨hc, rfl⟩ | ⟨hc, rfl⟩ | ⟨w, i, hc, hd, effect⟩ | ⟨w, e, hc, hd, rfl⟩ | ⟨hc, rfl⟩ := step_next h
  · simp [hc]
  · simp [hc]
  · have runs {is : List Instr} (listed : i ∈ is) : RunsOneOf s is := ⟨w, i, hc, hd, listed⟩
    have runsOnly {j : Instr} (is : i = j) : RunsOneOf s [j] := runs (by simp [is])
    refine ⟨?k, fun changed => .inr ?st, fun changed => .inr ?mem, fun changed => .inr ?wr, fun changed => .inr ?rd,
      fun changed => .inr ?mask, fun changed => .inr ?inh⟩
    case k => simpa using congrArg (·.k) effect.inputs_unchanged
    case st => exact runs (effect.writes_st (by simpa using changed))
    case mem =>
      obtain ⟨b, push⟩ := effect.writes_mem (by simpa using changed)
      exact ⟨b, runsOnly push⟩
    case wr =>
      obtain clear | ⟨b, push⟩ := effect.writes_wr (by simpa using changed)
      · exact .inl (runsOnly clear)
      · exact .inr ⟨b, runsOnly push⟩
    case rd => exact runs (effect.writes_rd (by simpa using changed))
    case mask => exact (effect.writes_mask (by simpa using changed)).imp (.imp_right runsOnly) (.imp_right runsOnly)
    case inh => exact .inr ((effect.writes_inh (by simpa using changed)).imp_right runsOnly)
  · simp
  · simp

/-! ### The arbitration bits (42_arbitration.md R150 to R155) -/

/-- Settles O37: the guard, then CSENTER's own rule. -/
theorem csenterOpensSection : Obligations.CsenterOpensSection :=
  ⟨by decide, fun _ => ⟨exec_csenter_outside, exec_csenter_elsewhere⟩⟩

/-- Settles O39: the guard, then IRET's own rule, whose state meets the condition of the grant while a request is up. -/
theorem iretEndsHandler : Obligations.IretEndsHandler := by
  refine ⟨by decide, fun s => ⟨fun handler => ⟨?effect, fun outside noReset request => ?grant⟩, exec_iret_in_foreground⟩⟩
  case effect => exact exec_iret_in_handler handler
  case grant => exact choose_of_request noReset request outside rfl

/-- Settles O44: CSENTER leads on from (0, 0), CSEXIT from a critical section, IRET from a handler. -/
theorem noArbitrationDeadlock : Obligations.NoArbitrationDeadlock := by
  intro s legal
  cases hi : s.inh
  · cases hm : s.mask
    · exact ⟨.csenter, by decide, _, exec_csenter_outside hi hm, rfl, by simp⟩
    · exact ⟨.csexit, by decide, _, exec_csexit_in_section hi hm, rfl, by simp⟩
  · exact ⟨.iret, by decide, _, exec_iret_in_handler hi, rfl, by simp⟩

theorem Effect.keeps_arbitrationLegal {i : Instr} {s t : State} (h : Effect i s t) (legal : arbitrationLegal s) :
    arbitrationLegal t := by
  cases h with
  | csenter foreground => simp [foreground]
  | csexit | iret => simp
  | refused | stepDot | stepDash | stepSpace | flush | pushFull | pushStores | popEmpty | popLoads | isempty | clear =>
    exact legal

/-- Settles O40: a grant is taken only while `mask` is 0, and CSENTER is admitted only while `inh` is 0. -/
theorem maskAndInhNeverBoth : Obligations.MaskAndInhNeverBoth := by
  intro s t legal h
  obtain ⟨-, rfl⟩ | ⟨hc, rfl⟩ | ⟨w, i, -, -, effect⟩ | ⟨w, e, -, -, rfl⟩ | ⟨-, rfl⟩ := step_next h
  · simp
  · simp [(outside_of_grant hc).1]
  · exact effect.keeps_arbitrationLegal (by simpa using legal)
  · simpa using legal
  · simpa using legal

end Sys2Proof.Proofs
end

section
/-!
PROOF. The commands' words: what they decode to and which words are theirs (30_encoding.md R62, R67).
-/

namespace Sys2Proof.Proofs

open Sys2Proof.Machine

/-- Settles O1: `decode_encode`, which holds of every command. -/
theorem decodeInvertsEncode : Obligations.DecodeInvertsEncode := fun i _ => decode_encode i

/-- Settles O2: `encode_of_decode`. -/
theorem encodeInvertsDecode : Obligations.EncodeInvertsDecode := fun _ _ => encode_of_decode

/-- Settles O5: each word, written out, is the encoding of its command. -/
theorem wordsWrittenOutDecode : Obligations.WordsWrittenOutDecode := by
  refine ⟨?stepDot, ?stepDash, ?stepSpace, ?flush, ?push, ?pop, ?isempty, ?clear, ?csenter, ?csexit, ?iret⟩ <;>
    exact (decode_eq_ok_iff _ _).2 (by decide)

end Sys2Proof.Proofs
end

section
/-!
PROOF. The choice of the next step from the first of the levels presented (60_exceptions.md R167), the reset event
(70_reset_and_hazards.md R180), the ports after a step (10_state.md R30), and what has no influence on a step (00_scope.md R2,
10_state.md R29).
-/

namespace Sys2Proof.Proofs

open Sys2Proof.Machine Sys2Proof.Claims

/-! ### The choice (60_exceptions.md R167) -/

/-- The state in which an accepted command runs, written out for the lines and words presented. -/
theorem accepted_of_presented {s : State} {l : Lines} {ls : List Lines} {w : CommandWord} {ws : List CommandWord}
    (first : s.lines = l :: ls) (word : (if s.inh then s.ih else s.fg) = w :: ws) :
    accepted s = { s with lines := ls, fg := if s.inh then s.fg else ws, ih := if s.inh then ws else s.ih } := by
  rw [accepted, passLines_of_lines first, acceptWord]
  cases hi : s.inh <;> simp_all

theorem choose_reset {s : State} (reset : (currentLines s).rst = true) : choose s = .reset := by
  simp [choose, reset]

theorem choose_command {s : State} {w : CommandWord} {ws : List CommandWord} (noReset : (currentLines s).rst = false)
    (noGrant : ((currentLines s).irq && !s.mask && !s.inh) = false) (valid : (currentLines s).cmdValid = true)
    (word : (if s.inh then s.ih else s.fg) = w :: ws) : choose s = .command w := by
  simp [choose, presented, contextWords, noReset, noGrant, valid, word]

theorem choose_idle {s : State} (noReset : (currentLines s).rst = false)
    (noGrant : ((currentLines s).irq && !s.mask && !s.inh) = false)
    (nothing : (currentLines s).cmdValid = false ∨ (if s.inh then s.ih else s.fg) = []) : choose s = .idle := by
  obtain notValid | noWord := nothing
  · simp [choose, presented, noReset, noGrant, notValid]
  · simp [choose, presented, contextWords, noReset, noGrant, noWord]

theorem step_of_reset {s : State} (hc : choose s = .reset) : step s = .next (performReset (passLines s)) := by
  simp [step, hc]

theorem step_of_idle {s : State} (hc : choose s = .idle) : step s = .next (idle (passLines s)) := by
  simp [step, hc]

theorem step_of_word {s : State} {w : CommandWord} (hc : choose s = .command w) : step s = execWord w (accepted s) := by
  simp [step, hc]

/-- Settles O6: the choice is the command, and its word moves the lines and its context's words on. -/
theorem stepRunsDecodedCommand : Obligations.StepRunsDecodedCommand := by
  intro s l ls w ws i first noReset noGrant valid word hd
  have current := currentLines_of_lines first
  have hc : choose s = .command w := choose_command (current ▸ noReset) (current ▸ noGrant) (current ▸ valid) word
  rw [step_of_command hc hd, accepted_of_presented first word]

/-- Settles O7: the four choices in their order. -/
theorem stepChosenByPriority : Obligations.StepChosenByPriority := by
  intro s l ls first
  have current := currentLines_of_lines first
  refine ⟨fun reset => ?reset, fun noReset request outside foreground => ?grant, fun noReset noGrant => ?rest⟩
  case reset => rw [step_of_reset (choose_reset (current ▸ reset)), passLines_of_lines first]
  case grant =>
    rw [step_of_grant (choose_of_request (current ▸ noReset) (current ▸ request) outside foreground), passLines_of_lines first]
  case rest =>
    replace noGrant : (l.irq && !s.mask && !s.inh) = false := by
      obtain low | inside | handler := noGrant
      · simp [low]
      · simp [inside]
      · simp [handler]
    refine ⟨fun valid w ws word => ?command, fun nothing => ?idle⟩
    case command =>
      rw [step_of_word (choose_command (current ▸ noReset) (current ▸ noGrant) (current ▸ valid) word),
        accepted_of_presented first word]
    case idle =>
      refine ⟨_, step_of_idle (choose_idle (current ▸ noReset) (current ▸ noGrant) (current ▸ nothing)), ?_⟩
      rw [passLines_of_lines first, idle]

/-! ### Reset (70_reset_and_hazards.md R180, 10_state.md R32) -/

/-- With both cursors at 0 the buffer holds nothing. -/
theorem occupiedSlots_of_cursors_zero {s : State} (wr : s.wr = 0) (rd : s.rd = 0) : occupiedSlots s = [] := by
  simp [occupiedSlots, occupancy, wr, rd]

/-- Settles O10: the reset goes first, and `performReset` writes the reset values. -/
theorem resetEventSetsResetValues : Obligations.ResetEventSetsResetValues := by
  intro s l ls first reset
  have current := currentLines_of_lines first
  refine ⟨_, step_of_reset (choose_reset (current ▸ reset)), rfl, rfl, rfl, rfl, rfl, ?contents, rfl, ?lines, rfl, rfl⟩
  case contents => rw [contents, occupiedSlots_of_cursors_zero rfl rfl, List.map_nil]
  case lines => rw [passLines_of_lines first]; rfl

theorem exec_isempty_of_empty {s : State} (admitted : ringAdmitted s) (empty : s.wr = s.rd) :
    exec .isempty s = .next (respond s (.ok 0x01)) := by
  rw [exec_of_ring_admitted rfl admitted, ownRule, boolByte_isEmpty, if_pos empty]

theorem runCommands_three {i j k : Instr} {s t u v : State} (hi : exec i s = .next t) (hj : exec j t = .next u)
    (hk : exec k u = .next v) : runCommands [i, j, k] s = some (v, [t.out, u.out, v.out]) := by
  rw [runCommands_cons hi, runCommands_cons hj, runCommands_cons hk]
  rfl

/-- Settles O30: after CLEAR the cursors are equal, and an empty buffer answers ISEMPTY and POP so. -/
theorem clearThenEmpty : Obligations.ClearThenEmpty := fun _ admitted =>
  runCommands_three (exec_of_ring_admitted (i := .clear) rfl admitted) (exec_isempty_of_empty admitted rfl)
    (exec_pop_of_empty admitted rfl)

/-- Settles O11: the fields by definition; a critical section opened at reset finds an empty buffer. -/
theorem resetStateHasResetValues : Obligations.ResetStateHasResetValues := by
  refine ⟨rfl, Nat.succ_pos _, fun k => ⟨rfl, rfl, rfl, rfl, rfl, ?_⟩⟩
  rw [runCommands_cons (exec_csenter_outside rfl rfl), runCommands_cons (exec_isempty_of_empty (.inr rfl) rfl),
    runCommands_cons (exec_pop_of_empty (.inr rfl) rfl), runCommands_cons (exec_csexit_in_section rfl rfl)]
  exact ⟨_, rfl⟩

/-! ### The ports (10_state.md R30, 30_encoding.md R71) -/

theorem ofBool_eq_one_iff (b : Bool) : BitVec.ofBool b = 1 ↔ b = true := by cases b <;> decide

/-- Settles O54: the three ports are read off the state, whatever the step was. -/
theorem pinsShowTheState : Obligations.PinsShowTheState :=
  fun _ t _ => ⟨rfl, ofBool_eq_one_iff t.mask, ofBool_eq_one_iff t.inh⟩

/-! ### What has no influence (00_scope.md R2, 10_state.md R29) -/

/-- Every arm of every command's own rule writes the response. -/
theorem ownRule_of_out (i : Instr) (s : State) (o : Output) : ownRule i { s with out := o } = ownRule i s := by
  cases i with
  | push b => rw [ownRule, ownRule, pushByte_eq, pushByte_eq]; rfl
  | pop => rw [ownRule, ownRule, popByte_eq, popByte_eq]; rfl
  | stepDot | stepDash | stepSpace | flush | isempty | clear | csenter | csexit | iret => rfl

theorem exec_of_out (i : Instr) (s : State) (o : Output) : exec i { s with out := o } = exec i s := by
  rw [exec_eq_guarded, exec_eq_guarded, ownRule_of_out]
  rfl

theorem accepted_of_out (s : State) (o : Output) : accepted { s with out := o } = { accepted s with out := o } := by
  cases hi : s.inh <;> simp [accepted, acceptWord, passLines, hi]

/-- Settles O48: the choice does not read the ports, and every kind of step writes them. -/
theorem previousResponseHasNoInfluence : Obligations.PreviousResponseHasNoInfluence := by
  intro s o
  have same : choose { s with out := o } = choose s := rfl
  cases hc : choose s with
  | reset => rw [step_of_reset hc, step_of_reset (same.trans hc)]; rfl
  | grant => rw [step_of_grant hc, step_of_grant (same.trans hc)]; rfl
  | idle => rw [step_of_idle hc, step_of_idle (same.trans hc)]; rfl
  | command w =>
    rw [step_of_word hc, step_of_word (same.trans hc), accepted_of_out]
    cases hd : decode w with
    | ok i => simp only [execWord, hd, exec_of_out]
    | error e => simp only [execWord, hd]; rfl

/-- An FSM command goes on in every state: its guard reads `inh`, its own rule `st`. -/
theorem exec_fsm_next {i : Instr} (fsm : i ∈ fsmCommands) (s : State) : ∃ t, exec i s = .next t := by
  simp only [fsmCommands, List.mem_cons, List.not_mem_nil, or_false] at fsm
  cases hi : s.inh
  · obtain rfl | rfl | rfl | rfl := fsm
    · exact ⟨_, exec_stepOf_foreground .dot hi⟩
    · exact ⟨_, exec_stepOf_foreground .dash hi⟩
    · exact ⟨_, exec_stepOf_foreground .space hi⟩
    · exact ⟨_, exec_of_fsm_foreground (i := .flush) rfl hi⟩
  · obtain rfl | rfl | rfl | rfl := fsm <;> exact ⟨_, exec_of_fsm_handler rfl hi⟩

theorem effect_fsm_of_ring {i : Instr} {s t : State} (fsm : i ∈ fsmCommands) (h : Effect i s t) (m : Memory) (w r : Nat) :
    Effect i { s with mem := m, wr := w, rd := r } { t with mem := m, wr := w, rd := r } := by
  cases h with
  | refused notAdmitted => exact .refused notAdmitted
  | stepDot foreground => exact .stepDot foreground
  | stepDash foreground => exact .stepDash foreground
  | stepSpace foreground => exact .stepSpace foreground
  | flush foreground => exact .flush foreground
  | pushFull | pushStores | popEmpty | popLoads | isempty | clear | csenter | csexit | iret => simp [fsmCommands] at fsm

theorem effect_ring_of_st {i : Instr} {s t : State} (ring : classOf i = .ring) (h : Effect i s t) (node : DecoderState) :
    Effect i { s with st := node } { t with st := node } := by
  cases h with
  | refused notAdmitted => exact .refused notAdmitted
  | pushFull admitted full => exact .pushFull admitted full
  | pushStores admitted room slot => exact .pushStores admitted room slot
  | popEmpty admitted empty => exact .popEmpty admitted empty
  | popLoads admitted held slot => exact .popLoads admitted held slot
  | isempty admitted => exact .isempty admitted
  | clear admitted => exact .clear admitted
  | stepDot | stepDash | stepSpace | flush | csenter | csexit | iret => cases ring

theorem classOf_of_mem_ring {i : Instr} {b : Byte} (ring : i ∈ [Instr.push b, .pop, .isempty, .clear]) :
    classOf i = .ring := by
  simp only [List.mem_cons, List.not_mem_nil, or_false] at ring
  obtain rfl | rfl | rfl | rfl := ring <;> rfl

/-- Settles O49: each half's effects carry over to a state that differs in the other half. -/
theorem halvesDoNotInterfere : Obligations.HalvesDoNotInterfere := by
  refine ⟨fun s i m w r fsm => ?fsm, fun s t node b i ring h => ?ring⟩
  case fsm =>
    obtain ⟨t, h⟩ := exec_fsm_next fsm s
    exact ⟨t, h, exec_of_effect (effect_fsm_of_ring fsm (effect_of_exec h) m w r)⟩
  case ring => exact exec_of_effect (effect_ring_of_st (classOf_of_mem_ring ring) (effect_of_exec h) node)

end Sys2Proof.Proofs
end

section
/-!
PROOF. The decoder's table T as a walk (40_decoder_fsm.md section 4): a run of STEP commands is the walk of their symbols, the walk of
a character's code reads none of the 24 decided entries, and where marks and Spaces lead.
-/

namespace Sys2Proof.Proofs

open Sys2Proof.Machine Sys2Proof.Claims

/-! ### The table, entry by entry -/

/-- The thirty states in the order of their codes (30_encoding.md R64). -/
def everyState : List DecoderState :=
  [.start, .e, .t, .i, .a, .n, .m, .s, .u, .r, .w, .d, .k, .g, .o, .h, .v, .f, .dig2, .l, .p, .j, .b, .x, .c, .y, .z, .q,
    .dig8, .dig90]

theorem mem_everyState (node : DecoderState) : node ∈ everyState := by cases node <;> decide

def everySymbol : List Symbol := [.dot, .dash, .space]

theorem mem_everySymbol (y : Symbol) : y ∈ everySymbol := by cases y <;> decide

/-- The codes, in order, are 0 to 29 (30_encoding.md R64). -/
theorem stateCodes_eq_range : everyState.map (fun node => (stateCode node).toNat) = List.range 30 := by decide

/-- Settles O24: the codes listed in order are a range, which has no duplicates and ends before 30. -/
theorem stateCodesAreDistinct : Obligations.StateCodesAreDistinct := by
  refine ⟨fun node node' same => ?distinct, fun node => ?below, stateCodes_eq_range⟩
  case distinct =>
    have nodup : (everyState.map (fun node => (stateCode node).toNat)).Nodup := stateCodes_eq_range ▸ List.nodup_range
    exact List.inj_on_of_nodup_map nodup (mem_everyState node) (mem_everyState node') (congrArg BitVec.toNat same)
  case below =>
    have listed := List.mem_map_of_mem (f := fun node => (stateCode node).toNat) (mem_everyState node)
    rw [stateCodes_eq_range] at listed
    exact List.mem_range.1 listed

/-- Settles O12: the guard, then the STEP command's own rule. -/
theorem stepCommandsFeedTheTable : Obligations.StepCommandsFeedTheTable :=
  ⟨by decide, fun _ y => ⟨exec_stepOf_foreground y, exec_of_fsm_handler (classOf_stepOf y)⟩⟩

/-- Settles O15: fifteen rows, each from its entries. -/
theorem rowsWithDecidedEntries : Obligations.RowsWithDecidedEntries := by
  refine ⟨?r, ?v, ?f, ?dig2, ?l, ?p, ?j, ?b, ?x, ?c, ?y, ?z, ?q, ?dig8, ?dig90⟩ <;> exact rowIs_of_entries (by decide)

/-- Settles O17: in each of the 90 entries the byte is `0x00` or the new state is Start. -/
theorem emissionReturnsToStart : Obligations.EmissionReturnsToStart := by
  intro inv dig node y emits
  revert emits
  cases node <;> cases y <;> simp [transitionWith]

/-! ### Runs of STEP commands are walks of the table -/

/-- The walk of the block's own table. -/
abbrev walk (node : DecoderState) (ys : List Symbol) : DecoderState × List Byte :=
  walkTable invalidNext digPrefixSpaceByte node ys

theorem walk_cons (node : DecoderState) (y : Symbol) (ys : List Symbol) :
    walk node (y :: ys) =
      ((walk (transition node y).1 ys).1, (transition node y).2 :: (walk (transition node y).1 ys).2) := rfl

/-- In the foreground, feeding symbols one after another walks the table, answers the bytes emitted, and writes `st` alone. -/
theorem runCommands_stepOf (ys : List Symbol) {s : State} (foreground : s.inh = false) :
    ∃ t, runCommands (ys.map stepOf) s = some (t, (walk s.st ys).2.map okOut) ∧
      t = { s with st := (walk s.st ys).1, out := t.out } := by
  induction ys generalizing s with
  | nil => exact ⟨s, rfl, rfl⟩
  | cons y ys ih =>
    obtain ⟨t, run, frame⟩ := ih (s := feedSymbol s y) foreground
    refine ⟨t, ?_, frame⟩
    rw [List.map_cons, runCommands_cons (exec_stepOf_foreground y foreground), run]
    rfl

/-! ### A character's code and a Space (40_decoder_fsm.md R81, R120) -/

/-- What the walk of a character's code and a closing Space emits: a letter with the Space, a digit with its fifth symbol. -/
def keyedBytes (e : Byte × List Symbol) : List Byte :=
  if 0x41 ≤ e.1.toNat then List.replicate e.2.length 0x00 ++ [e.1] else List.replicate 4 0x00 ++ [e.1, 0x00]

theorem keyedBytes_of_letter {e : Byte × List Symbol} (letter : 0x41 ≤ e.1.toNat) :
    keyedBytes e = List.replicate e.2.length 0x00 ++ [e.1] := if_pos letter

theorem keyedBytes_of_digit {e : Byte × List Symbol} (digit : e.1.toNat < 0x41) :
    keyedBytes e = List.replicate 4 0x00 ++ [e.1, 0x00] := if_neg (Nat.not_le.2 digit)

theorem walk_character : ∀ e ∈ codeTable, walk .start (e.2 ++ [.space]) = (.start, keyedBytes e) := by decide

theorem filter_keyedBytes : ∀ e ∈ codeTable, (keyedBytes e).filter (fun d => d != 0) = [e.1] := by decide

/-- The 24 entries the spec decides itself: 21 patterns of no character (D7) and the Space before a digit is complete (D8). -/
def decidedEntries : List (DecoderState × Symbol) :=
  [(.r, .dash), (.v, .dot), (.f, .dot), (.f, .dash), (.dig2, .dot), (.l, .dot), (.l, .dash), (.p, .dot), (.p, .dash), (.j, .dot),
    (.b, .dash), (.x, .dot), (.x, .dash), (.c, .dot), (.c, .dash), (.y, .dot), (.y, .dash), (.z, .dash), (.q, .dot), (.q, .dash),
    (.dig8, .dash), (.dig2, .space), (.dig8, .space), (.dig90, .space)]

/-- Only the decided entries read the table's two parameters. -/
theorem transitionWith_eq_transition (inv : DecoderState → Symbol → DecoderState) (dig : DecoderState → Byte)
    {node : DecoderState} {y : Symbol} (fixed : (node, y) ∉ decidedEntries) : transitionWith inv dig node y = transition node y := by
  revert fixed
  cases node <;> cases y <;> simp [transition, transitionWith, decidedEntries]

/-- The walk of the block's table from a state reads no decided entry. -/
def avoidsDecided : DecoderState → List Symbol → Bool
  | _, [] => true
  | node, y :: ys => !decidedEntries.contains (node, y) && avoidsDecided (transition node y).1 ys

/-- A walk that reads no decided entry is the same for every choice of the parameters. -/
theorem walkTable_eq_walk (inv : DecoderState → Symbol → DecoderState) (dig : DecoderState → Byte) {node : DecoderState}
    {ys : List Symbol} (avoids : avoidsDecided node ys = true) : walkTable inv dig node ys = walk node ys := by
  induction ys generalizing node with
  | nil => rfl
  | cons y ys ih =>
    obtain ⟨fixed, rest⟩ : (node, y) ∉ decidedEntries ∧ avoidsDecided (transition node y).1 ys = true := by
      simpa [avoidsDecided] using avoids
    rw [walk_cons, ← ih rest, walkTable, transitionWith_eq_transition inv dig fixed]

theorem codeTable_avoidsDecided : ∀ e ∈ codeTable, avoidsDecided .start (e.2 ++ [.space]) = true := by decide

/-- Settles O19: a character's walk reads no decided entry, so it is the walk of the block's own table. -/
theorem roundTripForEveryParameter : Obligations.RoundTripForEveryParameter := by
  intro inv dig c code listed
  rw [walkTable_eq_walk inv dig (codeTable_avoidsDecided _ listed), walk_character _ listed]
  exact ⟨rfl, filter_keyedBytes _ listed⟩

/-- What SymbolEncoder gives for a letter or a digit is the table's code of its upper-case form (00_scope.md R15). -/
theorem mem_codeTable_of_byteToSymbols {c : Byte} (notBlank : isWhitespace c = false) (encodes : byteToSymbols c ≠ []) :
    (upperCase c, byteToSymbols c) ∈ codeTable := by
  simp only [byteToSymbols, notBlank, Bool.false_eq_true, if_false, codeOf] at encodes ⊢
  cases found : codeTable.find? (fun e => e.1 == upperCase c) with
  | none => simp [found] at encodes
  | some e =>
    have key : e.1 = upperCase c := by simpa using List.find?_some found
    have listed : e ∈ codeTable := List.mem_of_find?_eq_some found
    rw [← key]
    exact listed

/-- A byte whose upper-case form is below `0x41` is its own upper-case form. -/
theorem upperCase_eq_self {c : Byte} (low : (upperCase c).toNat < 0x41) : upperCase c = c := by
  unfold upperCase at low ⊢
  split
  · next lower =>
    rw [if_pos lower, BitVec.toNat_sub] at low
    change (2 ^ 8 - 0x20 + c.toNat) % 2 ^ 8 < 0x41 at low
    omega
  · rfl

/-- The bytes taken as emitted are those of the walk that are not `0x00` (00_scope.md R10). -/
theorem filterMap_emittedByte (ds : List Byte) : (ds.map okOut).filterMap emittedByte = ds.filter (fun d => d != 0) := by
  induction ds with
  | nil => rfl
  | cons d ds ih =>
    rw [List.map_cons, List.filterMap_cons, List.filter_cons, ih]
    obtain zero | nonzero := eq_or_ne d 0
    · simp [zero, emittedByte]
    · rw [emittedByte, if_neg nonzero, if_pos (bne_iff_ne.2 nonzero)]

/-- Settles O18: the commands walk the character's code and a Space. -/
theorem characterRoundTrip : Obligations.CharacterRoundTrip := by
  intro s c atStart foreground notBlank encodes
  have listed := mem_codeTable_of_byteToSymbols notBlank encodes
  obtain ⟨t, run, frame⟩ := runCommands_stepOf (byteToSymbols c ++ [.space]) foreground
  have keyed : walk s.st (byteToSymbols c ++ [.space]) = (s.st, keyedBytes (upperCase c, byteToSymbols c)) := by
    rw [atStart]
    exact walk_character _ listed
  rw [keyed] at run frame
  refine ⟨t, _, by simpa [stepOf] using run, ?emitted, frame, fun letter => ?letter, fun digit => ?digit⟩
  case emitted => rw [filterMap_emittedByte, filter_keyedBytes _ listed]
  case letter => rw [keyedBytes_of_letter letter, List.map_append, List.map_replicate]; rfl
  case digit => rw [keyedBytes_of_digit digit, List.map_append, List.map_replicate, upperCase_eq_self digit]; rfl

/-! ### DetectionLoop in front of the table (00_scope.md R12, R13) -/

theorem feedAfterMark_eq (ticks : Nat) : feedAfterMark ticks = if ticks ≤ 3 then .dot else .dash := by
  obtain short | medium | long : ticks ≤ 3 ∨ (4 ≤ ticks ∧ ticks ≤ 7) ∨ 7 < ticks := by omega
  · simp [feedAfterMark, classify_of_le_three short, short]
  · rw [feedAfterMark, classify_of_four_le_of_le_seven medium.1 medium.2, if_neg (by omega)]
  · rw [feedAfterMark, classify_of_seven_lt long, if_neg (by omega)]

theorem feedAfterGap_of_three_lt {gap : Nat} (closing : 3 < gap) : feedAfterGap gap = (some .space, decide (7 < gap)) := by
  obtain medium | long := Nat.lt_or_ge 7 gap |>.symm
  · rw [feedAfterGap, classify_of_four_le_of_le_seven closing medium, decide_eq_false (by omega)]
  · rw [feedAfterGap, classify_of_seven_lt long, decide_eq_true long]

/-- Settles O58: the ticks are fed as the character's code, and the gap as a Space; the rest is the round trip. -/
theorem keyedCharacterIsDecoded : Obligations.KeyedCharacterIsDecoded := by
  intro c code ticks gap listed keyed closing
  refine ⟨.space, feedAfterGap_of_three_lt closing, ?_⟩
  rw [funext feedAfterMark_eq, keyed]
  exact roundTripForEveryParameter invalidNext digPrefixSpaceByte c code listed

/-! ### Marks and Spaces from any state (40_decoder_fsm.md R121, R122, R124) -/

/-- The marks that lead from Start to a state: its path in the tree. -/
def marksTo : DecoderState → List Symbol
  | .start => []
  | .e => [.dot]
  | .t => [.dash]
  | .i => [.dot, .dot]
  | .a => [.dot, .dash]
  | .n => [.dash, .dot]
  | .m => [.dash, .dash]
  | .s => [.dot, .dot, .dot]
  | .u => [.dot, .dot, .dash]
  | .r => [.dot, .dash, .dot]
  | .w => [.dot, .dash, .dash]
  | .d => [.dash, .dot, .dot]
  | .k => [.dash, .dot, .dash]
  | .g => [.dash, .dash, .dot]
  | .o => [.dash, .dash, .dash]
  | .h => [.dot, .dot, .dot, .dot]
  | .v => [.dot, .dot, .dot, .dash]
  | .f => [.dot, .dot, .dash, .dot]
  | .dig2 => [.dot, .dot, .dash, .dash]
  | .l => [.dot, .dash, .dot, .dot]
  | .p => [.dot, .dash, .dash, .dot]
  | .j => [.dot, .dash, .dash, .dash]
  | .b => [.dash, .dot, .dot, .dot]
  | .x => [.dash, .dot, .dot, .dash]
  | .c => [.dash, .dot, .dash, .dot]
  | .y => [.dash, .dot, .dash, .dash]
  | .z => [.dash, .dash, .dot, .dot]
  | .q => [.dash, .dash, .dot, .dash]
  | .dig8 => [.dash, .dash, .dash, .dot]
  | .dig90 => [.dash, .dash, .dash, .dash]

theorem marksTo_length_le (node : DecoderState) : (marksTo node).length ≤ 4 := by cases node <;> decide

theorem marksTo_isMark (node : DecoderState) : ∀ y ∈ marksTo node, y.isMark = true := by cases node <;> decide

theorem walk_marksTo (node : DecoderState) :
    walk .start (marksTo node) = (node, List.replicate (marksTo node).length 0x00) := by cases node <;> decide

/-- Settles O20: the walk of the state's own marks. -/
theorem everyDecoderStateReached : Obligations.EveryDecoderStateReached := by
  refine fun node => ⟨marksTo node, marksTo_length_le node, marksTo_isMark node, fun s atStart foreground => ?_⟩
  obtain ⟨t, run, frame⟩ := runCommands_stepOf (marksTo node) foreground
  rw [atStart, walk_marksTo] at run frame
  exact ⟨t, by rw [run, List.map_replicate], frame⟩

theorem transition_space (node : DecoderState) : (transition node .space).1 = .start := by cases node <;> rfl

theorem walk_start_spaces (n : Nat) : walk .start (List.replicate n .space) = (.start, List.replicate n 0x00) := by
  induction n with
  | zero => rfl
  | succ n ih =>
    rw [List.replicate_succ, walk_cons]
    simp only [transition_space, ih]
    rfl

/-- Settles O21: the first Space goes to Start, and the further ones walk from Start to Start. -/
theorem spacesReturnToStartAndStay : Obligations.SpacesReturnToStartAndStay := by
  intro n s foreground
  obtain ⟨t, run, frame⟩ := runCommands_stepOf (.space :: List.replicate n .space) foreground
  rw [walk_cons, transition_space, walk_start_spaces] at run frame
  refine ⟨t, ?_, frame⟩
  simpa [List.replicate_succ, stepOf] using run

/-- A mark goes one deeper into the tree, or to Start. -/
theorem transition_mark (node : DecoderState) {y : Symbol} (mark : y.isMark = true) :
    (transition node y).1 = .start ∨ (marksTo (transition node y).1).length = (marksTo node).length + 1 := by
  cases y with
  | dot => cases node <;> decide
  | dash => cases node <;> decide
  | space => cases mark

/-- The tree is four deep, so marks that would go deeper pass Start. -/
theorem walk_passes_start {marks : List Symbol} {node : DecoderState} (allMarks : ∀ y ∈ marks, y.isMark = true)
    (deep : 5 ≤ (marksTo node).length + marks.length) :
    ∃ n, 1 ≤ n ∧ n ≤ marks.length ∧ (walk node (marks.take n)).1 = .start := by
  induction marks generalizing node with
  | nil =>
    have := marksTo_length_le node
    simp only [List.length_nil] at deep
    omega
  | cons y ys ih =>
    obtain ⟨mark, rest⟩ := List.forall_mem_cons.1 allMarks
    obtain atStart | deeper := transition_mark node mark
    · exact ⟨1, le_rfl, by simp, atStart⟩
    · obtain ⟨n, -, hn, back⟩ := ih (node := (transition node y).1) rest (by simp only [List.length_cons] at deep; omega)
      exact ⟨n + 1, by omega, by simpa using hn, back⟩

/-- Settles O23: five marks from Start go too deep. -/
theorem fiveMarksPassStart : Obligations.FiveMarksPassStart := by
  intro s marks atStart foreground five allMarks
  obtain ⟨n, pos, le, back⟩ := walk_passes_start (node := .start) allMarks (by simp [five])
  obtain ⟨t, run, frame⟩ := runCommands_stepOf (marks.take n) foreground
  refine ⟨n, t, _, pos, five ▸ le, run, ?_⟩
  rw [frame, atStart]
  exact back

/-! ### The bytes emitted (40_decoder_fsm.md R123) -/

def everyEntry : List (DecoderState × Symbol) := everyState.flatMap (fun node => everySymbol.map (fun y => (node, y)))

theorem mem_everyEntry (node : DecoderState) (y : Symbol) : (node, y) ∈ everyEntry :=
  List.mem_flatMap.2 ⟨node, mem_everyState node, List.mem_map_of_mem (mem_everySymbol y)⟩

/-- The byte of an entry of the table. -/
def emissionOf (e : DecoderState × Symbol) : Byte := (transition e.1 e.2).2

def emittingEntries : List (DecoderState × Symbol) := everyEntry.filter (fun e => emissionOf e != 0)

/-- The characters of the code table. -/
def characters : List Byte := codeTable.map Prod.fst

theorem characters_toNat : characters.map BitVec.toNat = List.range' 0x41 26 ++ List.range' 0x30 10 := by decide

theorem mem_characters_iff (d : Byte) :
    d ∈ characters ↔ (0x30 ≤ d.toNat ∧ d.toNat ≤ 0x39) ∨ (0x41 ≤ d.toNat ∧ d.toNat ≤ 0x5A) := by
  have toNat_injective : Function.Injective (BitVec.toNat (w := 8)) := fun _ _ => BitVec.eq_of_toNat_eq
  rw [← List.mem_map_of_injective toNat_injective, characters_toNat, List.mem_append, List.mem_range'_1, List.mem_range'_1]
  omega

theorem characters_nodup : characters.Nodup :=
  List.Nodup.of_map BitVec.toNat (characters_toNat ▸ by decide)

/-- The entries that emit are as many as the characters, and emit each of them once. -/
theorem emissions_perm_characters : (emittingEntries.map emissionOf).Perm characters := by decide

theorem mem_emittingEntries {node : DecoderState} {y : Symbol} (emits : (transition node y).2 ≠ 0) :
    (node, y) ∈ emittingEntries :=
  List.mem_filter.2 ⟨mem_everyEntry node y, bne_iff_ne.2 emits⟩

theorem emission_mem_characters {node : DecoderState} {y : Symbol} (emits : (transition node y).2 ≠ 0) :
    (transition node y).2 ∈ characters :=
  emissions_perm_characters.mem_iff.1 (List.mem_map_of_mem (f := emissionOf) (mem_emittingEntries emits))

/-- No two entries emit the same character. -/
theorem entry_unique {node node' : DecoderState} {y y' : Symbol} (emits : (transition node y).2 ≠ 0)
    (same : (transition node' y').2 = (transition node y).2) : node' = node ∧ y' = y := by
  have nodup : (emittingEntries.map emissionOf).Nodup := emissions_perm_characters.nodup_iff.2 characters_nodup
  have listed := mem_emittingEntries emits
  have listed' := mem_emittingEntries (same ▸ emits)
  exact Prod.mk.inj (List.inj_on_of_nodup_map nodup listed' listed same)

theorem zero_not_mem_characters : (0x00 : Byte) ∉ characters := by decide

/-- Settles O22: the emitting entries and the characters correspond one to one. -/
theorem emittedBytesAreTheCharacters : Obligations.EmittedBytesAreTheCharacters := by
  refine ⟨fun s y foreground => ⟨_, _, exec_stepOf_foreground y foreground, rfl, ?range⟩, fun d inRange => ?unique⟩
  case range =>
    obtain zero | emits := eq_or_ne (transition s.st y).2 0
    · exact .inl zero
    · exact .inr ((mem_characters_iff _).1 (emission_mem_characters emits))
  case unique =>
    have character := (mem_characters_iff d).2 inRange
    obtain ⟨⟨node, y⟩, -, rfl⟩ := List.mem_map.1 (emissions_perm_characters.mem_iff.2 character)
    refine ⟨node, y, rfl, fun node' y' same => entry_unique (fun zero => ?_) same⟩
    rw [emissionOf, zero] at character
    exact zero_not_mem_characters character

end Sys2Proof.Proofs
end

section
/-!
PROOF. The ring buffer as a queue (10_state.md R25, 41_ring_buffer.md section 3): cursor arithmetic modulo N, what PUSH appends and POP
removes, and the statements about occupancy and capacity.
-/

namespace Sys2Proof.Proofs

open Sys2Proof.Machine Sys2Proof.Claims

/-! ### Cursor arithmetic modulo N (00_scope.md R5, 41_ring_buffer.md R135) -/

theorem slots_pos (s : State) : 0 < slots s := Nat.two_pow_pos _

/-- A number below 2N reduces modulo N by at most one subtraction. -/
theorem mod_of_lt_two_mul {a n : Nat} (h : a < 2 * n) : a % n = if a < n then a else a - n := by
  split
  · next small => exact Nat.mod_eq_of_lt small
  · next large => rw [Nat.mod_eq_sub_mod (Nat.not_lt.1 large), Nat.mod_eq_of_lt (by omega)]

theorem nextCursor_eq {s : State} {c : Nat} (cursor : c < slots s) :
    nextCursor s c = if c + 1 < slots s then c + 1 else 0 := by
  rw [nextCursor, mod_of_lt_two_mul (by omega)]
  split <;> omega

theorem nextCursor_lt (s : State) (c : Nat) : nextCursor s c < slots s := Nat.mod_lt _ (slots_pos s)

theorem occupancy_lt (s : State) : occupancy s < slots s := Nat.mod_lt _ (slots_pos s)

theorem occupancy_eq {s : State} (cursors : CursorsInRange s) :
    occupancy s = if s.rd ≤ s.wr then s.wr - s.rd else s.wr + slots s - s.rd := by
  obtain ⟨hwr, hrd⟩ := cursors
  rw [occupancy, mod_of_lt_two_mul (by omega)]
  split <;> split <;> omega

/-- The slot `j` places after the read cursor. -/
theorem slot_eq {s : State} (cursors : CursorsInRange s) {j : Nat} (hj : j < slots s) :
    (s.rd + j) % slots s = if s.rd + j < slots s then s.rd + j else s.rd + j - slots s :=
  mod_of_lt_two_mul (by have := cursors.2; omega)

theorem empty_iff_occupancy {s : State} (cursors : CursorsInRange s) : s.wr = s.rd ↔ occupancy s = 0 := by
  rw [occupancy_eq cursors]
  obtain ⟨hwr, hrd⟩ := cursors
  split <;> omega

/-- Full means one slot free (10_state.md R29). -/
theorem isFull_eq_false_iff {s : State} (cursors : CursorsInRange s) : isFull s = false ↔ occupancy s + 2 ≤ slots s := by
  rw [isFull, beq_eq_false_iff_ne, nextCursor_eq cursors.1, occupancy_eq cursors]
  obtain ⟨hwr, hrd⟩ := cursors
  split <;> split <;> omega

theorem isEmpty_eq_false_iff {s : State} (cursors : CursorsInRange s) : isEmpty s = false ↔ 1 ≤ occupancy s := by
  rw [isEmpty, beq_eq_false_iff_ne, Ne, empty_iff_occupancy cursors]
  omega

/-! ### What PUSH appends -/

section Push

variable {s : State} (cursors : CursorsInRange s) (room : isFull s = false)

include cursors

theorem cursorsInRange_pushed (b : Byte) : CursorsInRange (pushed s b) :=
  ⟨nextCursor_lt s s.wr, cursors.2⟩

/-- The write cursor is the slot after the occupied ones. -/
theorem wr_eq_slot : s.wr = (s.rd + occupancy s) % slots s := by
  rw [slot_eq cursors (occupancy_lt s), occupancy_eq cursors]
  obtain ⟨hwr, hrd⟩ := cursors
  split <;> split <;> omega

theorem wr_not_mem_occupiedSlots : s.wr ∉ occupiedSlots s := by
  simp only [occupiedSlots, List.mem_map, List.mem_range, not_exists, not_and]
  intro j hj
  have := occupancy_lt s
  rw [wr_eq_slot cursors, slot_eq cursors (by omega), slot_eq cursors this]
  obtain ⟨hwr, hrd⟩ := cursors
  split <;> split <;> omega

include room

theorem occupancy_pushed (b : Byte) : occupancy (pushed s b) = occupancy s + 1 := by
  have := (isFull_eq_false_iff cursors).1 room
  rw [occupancy_eq (cursorsInRange_pushed cursors b), pushed_wr, pushed_rd, pushed_slots, nextCursor_eq cursors.1]
  rw [occupancy_eq cursors] at this ⊢
  obtain ⟨hwr, hrd⟩ := cursors
  split_ifs at this ⊢ <;> omega

theorem occupiedSlots_pushed (b : Byte) : occupiedSlots (pushed s b) = occupiedSlots s ++ [s.wr] := by
  rw [occupiedSlots, occupancy_pushed cursors room, List.range_succ, List.map_append, pushed_rd, pushed_slots]
  rw [List.map_singleton, ← wr_eq_slot cursors, occupiedSlots]

theorem contents_pushed (b : Byte) : contents (pushed s b) = contents s ++ [b] := by
  have kept : ∀ a ∈ occupiedSlots s, slotByte (pushed s b) a = slotByte s a := by
    intro a occupied
    rw [slotByte_pushed, if_neg]
    rintro rfl
    exact wr_not_mem_occupiedSlots cursors occupied
  have stored : slotByte (pushed s b) s.wr = b := (slotByte_pushed s b s.wr).trans (if_pos rfl)
  rw [contents, occupiedSlots_pushed cursors room, List.map_append, List.map_congr_left kept, List.map_singleton, stored,
    contents]

end Push

/-! ### What POP removes -/

section Pop

variable {s : State} (cursors : CursorsInRange s) (held : isEmpty s = false)

include cursors

theorem cursorsInRange_popped : CursorsInRange (popped s) :=
  ⟨cursors.1, nextCursor_lt s s.rd⟩

include held

theorem occupancy_eq_popped_succ : occupancy s = occupancy (popped s) + 1 := by
  have := (isEmpty_eq_false_iff cursors).1 held
  rw [occupancy_eq (cursorsInRange_popped cursors), popped_wr, popped_rd, popped_slots, nextCursor_eq cursors.2]
  rw [occupancy_eq cursors] at this ⊢
  obtain ⟨hwr, hrd⟩ := cursors
  split_ifs at this ⊢ <;> omega

theorem occupiedSlots_eq_cons : occupiedSlots s = s.rd :: occupiedSlots (popped s) := by
  have next (j : Nat) : (s.rd + (j + 1)) % slots s = ((popped s).rd + j) % slots s := by
    rw [popped_rd, nextCursor, Nat.mod_add_mod, Nat.add_assoc, Nat.add_comm 1 j]
  rw [occupiedSlots, occupancy_eq_popped_succ cursors held, List.range_succ_eq_map, List.map_cons, List.map_map, Nat.add_zero,
    Nat.mod_eq_of_lt cursors.2]
  exact congrArg _ (List.map_congr_left fun j _ => next j)

theorem contents_eq_cons : contents s = slotByte s s.rd :: contents (popped s) := by
  rw [contents, occupiedSlots_eq_cons cursors held, List.map_cons]
  rfl

end Pop

theorem contents_of_empty {s : State} (empty : s.wr = s.rd) (cursors : CursorsInRange s) : contents s = [] := by
  rw [contents, occupiedSlots, (empty_iff_occupancy cursors).1 empty]
  rfl

theorem length_contents (s : State) : (contents s).length = occupancy s := by
  simp [contents, occupiedSlots]

/-! ### Occupancy and capacity (41_ring_buffer.md R141) -/

theorem exec_push_stores {s : State} (b : Byte) (cursors : CursorsInRange s) (admitted : ringAdmitted s)
    (room : occupancy s + 2 ≤ slots s) : exec (.push b) s = .next (pushed s b) :=
  exec_of_effect (.pushStores admitted ((isFull_eq_false_iff cursors).2 room) cursors.1)

theorem exec_push_full {s : State} (b : Byte) (cursors : CursorsInRange s) (admitted : ringAdmitted s)
    (noRoom : ¬ occupancy s + 2 ≤ slots s) : exec (.push b) s = .next (respond s .full) :=
  exec_of_effect (.pushFull admitted (by
    rw [← isFull_eq_false_iff cursors] at noRoom
    exact eq_true_of_ne_false noRoom))

theorem exec_pop_loads {s : State} (cursors : CursorsInRange s) (admitted : ringAdmitted s) (held : 1 ≤ occupancy s) :
    exec .pop s = .next (popped s) :=
  exec_of_effect (.popLoads admitted ((isEmpty_eq_false_iff cursors).2 held) cursors.2)

/-- Settles O31: each command's two arms. -/
theorem occupancyMovesByOne : Obligations.OccupancyMovesByOne := by
  refine fun s b _ cursors admitted => ⟨occupancy_lt s, ?push, ?pop⟩
  case push =>
    by_cases room : occupancy s + 2 ≤ slots s
    · refine ⟨_, exec_push_stores b cursors admitted room, iff_of_true rfl room, ?_⟩
      rw [if_pos room, occupancy_pushed cursors ((isFull_eq_false_iff cursors).2 room)]
    · refine ⟨_, exec_push_full b cursors admitted room, iff_of_false nofun room, ?_⟩
      rw [if_neg room, respond_occupancy]
  case pop =>
    by_cases held : 1 ≤ occupancy s
    · refine ⟨_, exec_pop_loads cursors admitted held, iff_of_true ⟨_, rfl⟩ held, ?_⟩
      rw [occupancy_eq_popped_succ cursors ((isEmpty_eq_false_iff cursors).2 held), Nat.add_sub_cancel]
    · have empty := (empty_iff_occupancy cursors).2 (Nat.eq_zero_of_not_pos held)
      refine ⟨_, exec_pop_of_empty admitted empty, iff_of_false nofun held, ?_⟩
      rw [respond_occupancy]
      omega

/-- As many PUSHes as there is room for succeed and append their bytes. -/
theorem runCommands_pushes {bs : List Byte} {s : State} (cursors : CursorsInRange s) (admitted : ringAdmitted s)
    (room : occupancy s + bs.length + 1 ≤ slots s) :
    ∃ t, runCommands (bs.map Instr.push) s = some (t, List.replicate bs.length (okOut 0)) ∧
      contents t = contents s ++ bs ∧ CursorsInRange t ∧ ringAdmitted t ∧ slots t = slots s := by
  induction bs generalizing s with
  | nil => exact ⟨s, rfl, (List.append_nil _).symm, cursors, admitted, rfl⟩
  | cons b bs ih =>
    simp only [List.length_cons] at room
    have first : occupancy s + 2 ≤ slots s := by omega
    have notFull := (isFull_eq_false_iff cursors).2 first
    obtain ⟨t, run, held, rest⟩ := ih (s := pushed s b) (cursorsInRange_pushed cursors b) admitted
      (by rw [occupancy_pushed cursors notFull, pushed_slots]; omega)
    refine ⟨t, ?_, ?_, rest⟩
    · rw [List.map_cons, runCommands_cons (exec_push_stores b cursors admitted first), run]
      rfl
    · rw [held, contents_pushed cursors notFull, List.append_assoc, List.singleton_append]

/-- Settles O32: from an empty buffer N - 1 bytes fit, and then one slot is free. -/
theorem capacityIsSlotsMinusOne : Obligations.CapacityIsSlotsMinusOne := by
  intro s bs b _ cursors empty admitted size
  have none := (empty_iff_occupancy cursors).1 empty
  obtain ⟨t, run, held, cursors', admitted', slots'⟩ := runCommands_pushes (bs := bs) cursors admitted (by omega)
  rw [contents_of_empty empty cursors, List.nil_append] at held
  refine ⟨t, run, held, exec_push_full b cursors' admitted' ?_⟩
  rw [← length_contents, held]
  omega

/-! ### Pseudo-instructions around a ring-buffer command (30_encoding.md R69) -/

/-- The state inside the critical section that a pseudo-instruction opens. -/
abbrev opened (s : State) : State := { s with mask := true, out := okOut 0 }

/-- From (0, 0), CSENTER, a command that keeps the arbitration bits, and CSEXIT run that command in a section of its own. -/
theorem runCommands_in_section {i : Instr} {s u : State} (foreground : s.inh = false) (outside : s.mask = false)
    (middle : exec i (opened s) = .next u) (inh : u.inh = false) (mask : u.mask = true) :
    runCommands [.csenter, i, .csexit] s = some ({ u with mask := false, out := okOut 0 }, [okOut 0, u.out, okOut 0]) :=
  runCommands_three (exec_csenter_outside foreground outside) middle (exec_csexit_in_section inh mask)

theorem Effect.ring_keeps {i : Instr} {s t : State} (h : Effect i s t) (ring : classOf i = .ring) :
    t.st = s.st ∧ t.mask = s.mask ∧ t.inh = s.inh := by
  cases h with
  | refused | pushFull | pushStores | popEmpty | popLoads | isempty | clear => exact ⟨rfl, rfl, rfl⟩
  | stepDot | stepDash | stepSpace | flush | csenter | csexit | iret => cases ring

theorem response_of_ownRule {i : Instr} {s t : State} (own : ownRule i s = .next t) :
    ∃ r, t.out = .response r ∧ r ≠ .guard ∧ r ≠ .illegal := by
  obtain ok | ⟨full, -⟩ | ⟨empty, -⟩ := ownRule_answers own
  · exact ⟨_, ok, nofun, nofun⟩
  · exact ⟨_, full, nofun, nofun⟩
  · exact ⟨_, empty, nofun, nofun⟩

/-- A pseudo-instruction and the command it runs in a section. -/
theorem expand_of_mem_pairs {l : AsmLine} {i : Instr} {b : Byte}
    (pair : (l, i) ∈ [(AsmLine.gpush b, Instr.push b), (.gpop, .pop), (.gisempty, .isempty), (.gclear, .clear)]) :
    expand l = [.csenter, i, .csexit] ∧ classOf i = .ring := by
  simp only [List.mem_cons, Prod.mk.injEq, List.not_mem_nil, or_false] at pair
  obtain ⟨rfl, rfl⟩ | ⟨rfl, rfl⟩ | ⟨rfl, rfl⟩ | ⟨rfl, rfl⟩ := pair <;> exact ⟨rfl, rfl⟩

theorem stepOf_of_isMark {y : Symbol} (mark : y.isMark = true) : stepOf y = if y = .dot then .stepDot else .stepDash := by
  cases y with
  | dot | dash => rfl
  | space => cases mark

/-- Settles O56: a ring-buffer command in a section of its own, and a walk of the table for `morse`. -/
theorem pseudoInstructionsAreGuarded : Obligations.PseudoInstructionsAreGuarded := by
  refine ⟨fun s b l i foreground outside cursors pair => ?ring, fun s marks foreground wellFormed => ⟨?keys, ?walk⟩⟩
  case ring =>
    obtain ⟨expands, ring⟩ := expand_of_mem_pairs pair
    obtain ⟨u, own⟩ := ownRule_next i (s := opened s) cursors
    have middle : exec i (opened s) = .next u := (exec_of_ring_admitted ring (.inr rfl)).trans own
    obtain ⟨r, answer, notGuard, notIllegal⟩ := response_of_ownRule own
    obtain ⟨st, mask, inh⟩ := (effect_of_exec middle).ring_keeps ring
    refine ⟨u, r, middle, answer, notGuard, notIllegal, ?_, inh.trans foreground, st⟩
    rw [expands, ← answer]
    exact runCommands_in_section foreground outside middle (inh.trans foreground) mask
  case keys =>
    exact List.map_congr_left fun y hy => stepOf_of_isMark (List.all_eq_true.1 wellFormed y hy)
  case walk => exact runCommands_stepOf marks foreground

/-! ### Reading the buffer back (70_reset_and_hazards.md R191) -/

theorem runCommands_append {is js : List Instr} {s t u : State} {os os' : List Output}
    (first : runCommands is s = some (t, os)) (second : runCommands js t = some (u, os')) :
    runCommands (is ++ js) s = some (u, os ++ os') := by
  induction is generalizing s os with
  | nil => cases first; exact second
  | cons i is ih =>
    rw [runCommands] at first
    rw [List.cons_append, runCommands]
    cases hi : exec i s with
    | next v =>
      rw [hi] at first
      obtain ⟨⟨w, ws⟩, rest, same⟩ := Option.map_eq_some_iff.1 first
      cases same
      simp only [ih rest]
      rfl
    | fault f => rw [hi] at first; cases first
    | refused r => rw [hi] at first; cases first

/-- `gpop` from a buffer that holds a byte answers it and takes it out. -/
theorem runCommands_gpop_loads {s : State} (cursors : CursorsInRange s) (foreground : s.inh = false) (outside : s.mask = false)
    (held : 1 ≤ occupancy s) :
    runCommands (expand .gpop) s =
      some ({ popped s with mask := false, out := okOut 0 }, [okOut 0, okOut (slotByte s s.rd), okOut 0]) :=
  runCommands_in_section (u := popped (opened s)) foreground outside
    (exec_pop_loads (s := opened s) cursors (.inr rfl) held) foreground rfl

theorem runCommands_gpop_empty {s : State} (foreground : s.inh = false) (outside : s.mask = false) (empty : s.wr = s.rd) :
    runCommands (expand .gpop) s =
      some ({ s with mask := false, out := okOut 0 }, [okOut 0, .response .empty, okOut 0]) :=
  runCommands_in_section foreground outside (exec_pop_of_empty (s := opened s) (.inr rfl) empty) foreground rfl

/-- Reading back `n` bytes and the EMPTY after them. -/
theorem runCommands_gpops (n : Nat) {s : State} (cursors : CursorsInRange s) (foreground : s.inh = false)
    (outside : s.mask = false) (size : occupancy s = n) :
    ∃ t, runCommands ((List.replicate (n + 1) AsmLine.gpop).flatMap expand) s =
        some (t, (contents s).flatMap (fun b => [okOut 0, okOut b, okOut 0]) ++ [okOut 0, .response .empty, okOut 0]) ∧
      t = { s with rd := s.wr, out := t.out } := by
  induction n generalizing s with
  | zero =>
    have empty := (empty_iff_occupancy cursors).2 size
    rw [contents_of_empty empty cursors]
    refine ⟨_, runCommands_gpop_empty foreground outside empty, ?_⟩
    rw [empty, ← outside]
  | succ n ih =>
    have held : isEmpty s = false := (isEmpty_eq_false_iff cursors).2 (by omega)
    have left : occupancy (popped s) = n := Nat.succ.inj ((occupancy_eq_popped_succ cursors held).symm.trans size)
    obtain ⟨t, run, frame⟩ := ih (s := { popped s with mask := false, out := okOut 0 }) (cursorsInRange_popped cursors)
      foreground rfl left
    refine ⟨t, ?_, ?_⟩
    · rw [List.replicate_succ, List.flatMap_cons,
        runCommands_append (runCommands_gpop_loads cursors foreground outside (by omega)) run, contents_eq_cons cursors held]
      rfl
    · rw [frame, ← outside]
      rfl

/-- Settles O35: one `gpop` for each byte held, and one more. -/
theorem readBackYieldsContents : Obligations.ReadBackYieldsContents :=
  fun _ inv foreground outside => runCommands_gpops _ inv.cursors foreground outside rfl

end Sys2Proof.Proofs
end

section
/-!
PROOF. The invariant of reachable states (10_state.md sections 3 and 4): every effect keeps it, so every step does, no step from it
stops, and from it no POP reads a slot that nothing wrote.
-/

namespace Sys2Proof.Proofs

open Sys2Proof.Machine Sys2Proof.Claims

/-! ### The invariant under each kind of update -/

theorem slots_congr {s t : State} (k : t.k = s.k) : slots t = slots s := by
  rw [slots, slots, k]

theorem occupiedSlots_congr {s t : State} (k : t.k = s.k) (wr : t.wr = s.wr) (rd : t.rd = s.rd) :
    occupiedSlots t = occupiedSlots s := by
  rw [occupiedSlots, occupiedSlots, occupancy, occupancy, slots_congr k, wr, rd]

/-- An update that leaves the ring buffer and its parameter alone keeps the invariant if it leaves the arbitration bits legal. -/
theorem inv_of_ring_unchanged {s t : State} (inv : Inv s) (legal : arbitrationLegal t) (k : t.k = s.k) (mem : t.mem = s.mem)
    (wr : t.wr = s.wr) (rd : t.rd = s.rd) : Inv t where
  paramPos := k ▸ inv.paramPos
  cursors := by rw [CursorsInRange, slots_congr k, wr, rd]; exact inv.cursors
  notBoth := legal
  memWf := mem ▸ inv.memWf
  memInRange := by rw [slots_congr k, mem]; exact inv.memInRange
  written := by rw [occupiedSlots_congr k wr rd, mem]; exact inv.written

/-- With both cursors at 0 no slot is occupied, so none needs to be written. -/
theorem inv_of_cursors_zero {s : State} (paramPos : 1 ≤ s.k) (legal : arbitrationLegal s) (wr : s.wr = 0) (rd : s.rd = 0)
    (memWf : Memory.wf s.mem) (memInRange : ∀ c ∈ s.mem, c.1 < slots s) : Inv s where
  paramPos := paramPos
  cursors := by rw [CursorsInRange, wr, rd]; exact ⟨slots_pos s, slots_pos s⟩
  notBoth := legal
  memWf := memWf
  memInRange := memInRange
  written := by rw [occupiedSlots_of_cursors_zero wr rd]; exact List.forall_mem_nil _

/-- A PUSH that stores writes the one slot it makes occupied. -/
theorem inv_pushed {s : State} (inv : Inv s) (room : isFull s = false) (b : Byte) : Inv (pushed s b) where
  paramPos := inv.paramPos
  cursors := cursorsInRange_pushed inv.cursors b
  notBoth := inv.notBoth
  memWf := store_wf s.wr b inv.memWf
  memInRange := by
    intro c listed
    obtain rfl | before := mem_store listed
    · exact inv.cursors.1
    · exact inv.memInRange c before
  written := by
    intro a occupied
    rw [occupiedSlots_pushed inv.cursors room, List.mem_append, List.mem_singleton] at occupied
    rw [pushed_mem, lookup_store]
    split
    · rfl
    · next other => exact inv.written a (occupied.resolve_right other)

/-- A POP that loads leaves occupied slots that were occupied before. -/
theorem inv_popped {s : State} (inv : Inv s) (held : isEmpty s = false) : Inv (popped s) where
  paramPos := inv.paramPos
  cursors := cursorsInRange_popped inv.cursors
  notBoth := inv.notBoth
  memWf := inv.memWf
  memInRange := inv.memInRange
  written := fun a occupied => inv.written a (by
    rw [occupiedSlots_eq_cons inv.cursors held]
    exact List.mem_cons_of_mem _ occupied)

/-- Every effect of a command keeps the invariant. -/
theorem Effect.inv {i : Instr} {s t : State} (h : Effect i s t) (inv : Inv s) : Inv t := by
  have legal : arbitrationLegal t := h.keeps_arbitrationLegal inv.notBoth
  cases h with
  | pushStores _ room => exact inv_pushed inv room _
  | popLoads _ held => exact inv_popped inv held
  | clear => exact inv_of_cursors_zero inv.paramPos legal rfl rfl inv.memWf inv.memInRange
  | refused | stepDot | stepDash | stepSpace | flush | pushFull | popEmpty | isempty | csenter | csexit | iret =>
    exact inv_of_ring_unchanged inv legal rfl rfl rfl rfl

theorem inv_accepted {s : State} (inv : Inv s) : Inv (accepted s) :=
  inv_of_ring_unchanged inv (by simpa using inv.notBoth) (accepted_k s) (accepted_mem s) (accepted_wr s) (accepted_rd s)

/-- Settles O45: a reset empties the buffer, a command's effect keeps the invariant, and the other steps leave the ring buffer
alone. -/
theorem everyStepKeepsInvariant : Obligations.EveryStepKeepsInvariant := by
  intro s t inv h
  have legal : arbitrationLegal t := maskAndInhNeverBoth s t inv.notBoth h
  obtain ⟨-, rfl⟩ | ⟨-, rfl⟩ | ⟨w, i, -, -, effect⟩ | ⟨w, e, -, -, rfl⟩ | ⟨-, rfl⟩ := step_next h
  case inl => exact inv_of_cursors_zero inv.paramPos legal rfl rfl (performReset_mem_wf _) (List.forall_mem_nil _)
  case inr.inl => exact inv_of_ring_unchanged inv legal rfl rfl rfl rfl
  case inr.inr.inl => exact effect.inv (inv_accepted inv)
  case inr.inr.inr.inl => exact inv_of_ring_unchanged (inv_accepted inv) legal rfl rfl rfl rfl
  case inr.inr.inr.inr => exact inv_of_ring_unchanged inv legal rfl rfl rfl rfl

theorem inv_resetWith {k : Nat} (paramPos : 1 ≤ k) : Inv (State.resetWith k) :=
  inv_of_cursors_zero paramPos (by simp) rfl rfl List.Pairwise.nil (List.forall_mem_nil _)

/-- Settles O46: the reset state has both cursors at 0. -/
theorem invariantHoldsAtReset : Obligations.InvariantHoldsAtReset :=
  ⟨inv_resetWith (Nat.succ_pos _), fun _ => inv_resetWith⟩

/-! ### Runs from the invariant (60_exceptions.md R163) -/

/-- A command stops nowhere while both cursors name slots. -/
theorem exec_next (i : Instr) {s : State} (cursors : CursorsInRange s) : ∃ t, exec i s = .next t := by
  rw [exec_eq_guarded]
  cases admitted : admits (classOf i) s.inh s.mask
  · exact ⟨_, guarded_not_admitted _ admitted⟩
  · rw [guarded_admitted _ admitted]
    exact ownRule_next i cursors

theorem step_next_of_cursors {s : State} (cursors : CursorsInRange s) : ∃ t, step s = .next t := by
  obtain ⟨-, h⟩ | ⟨-, h⟩ | ⟨w, i, -, -, h⟩ | ⟨w, e, -, -, h⟩ | ⟨-, h⟩ := step_cases s
  · exact ⟨_, h⟩
  · exact ⟨_, h⟩
  · rw [h]
    exact exec_next i (cursorsInRange_accepted cursors)
  · exact ⟨_, h⟩
  · exact ⟨_, h⟩

theorem trace_of_step {n : Nat} {s t u : State} {es : List Event} (first : step s = .next t) (rest : trace n t = some (u, es)) :
    trace (n + 1) s = some (u, eventOf s t :: es) := by
  simp [trace, first, rest]

/-- Settles O47: a step from the invariant goes on, and leads to the invariant. -/
theorem runsNeverStop : Obligations.RunsNeverStop := by
  intro n
  induction n with
  | zero => exact fun s inv => ⟨s, [], rfl, rfl, inv⟩
  | succ n ih =>
    intro s inv
    obtain ⟨u, first⟩ := step_next_of_cursors inv.cursors
    obtain ⟨t, es, rest, length, inv'⟩ := ih u (everyStepKeepsInvariant s u inv first)
    exact ⟨t, _, trace_of_step first rest, by rw [List.length_cons, length], inv'⟩

/-! ### The byte a POP loads (10_state.md R34) -/

theorem slotByte_of_lookup {s : State} {a : Nat} {v : Byte} (listed : Memory.lookup s.mem a = some v) : slotByte s a = v := by
  rw [slotByte, listed, Option.getD_some]

/-- The slot at the read cursor is listed while the buffer holds a byte. -/
theorem lookup_rd {s : State} (inv : Inv s) (held : isEmpty s = false) : ∃ v, Memory.lookup s.mem s.rd = some v :=
  Option.isSome_iff_exists.1 (inv.written s.rd (by
    rw [occupiedSlots_eq_cons inv.cursors held]
    exact List.mem_cons_self))

/-- Settles O34: a POP that answers OK loads the slot at the read cursor, which is occupied. -/
theorem popNeverReadsUnwrittenSlot : Obligations.PopNeverReadsUnwrittenSlot := by
  intro s t v inv h answer
  cases effect_of_exec h with
  | refused | popEmpty => cases answer
  | popLoads _ held =>
    obtain ⟨w, listed⟩ := lookup_rd inv held
    have datum : okOut (slotByte s s.rd) = okOut v := answer
    rw [slotByte_of_lookup listed] at datum
    cases datum
    exact listed

/-! ### The six elements are the whole state (10_state.md section 1) -/

/-- From the invariant no effect depends on the index of free bytes: only POP reads a slot, and it reads a written one. -/
theorem Effect.of_resetCount {i : Instr} {s t : State} (h : Effect i s t) (inv : Inv s) (c : Nat) :
    Effect i { s with resetCount := c } { t with resetCount := c } := by
  cases h with
  | refused notAdmitted => exact .refused notAdmitted
  | stepDot foreground => exact .stepDot foreground
  | stepDash foreground => exact .stepDash foreground
  | stepSpace foreground => exact .stepSpace foreground
  | flush foreground => exact .flush foreground
  | pushFull admitted full => exact .pushFull admitted full
  | pushStores admitted room slot => exact .pushStores admitted room slot
  | popEmpty admitted empty => exact .popEmpty admitted empty
  | popLoads admitted held slot =>
    obtain ⟨v, listed⟩ := lookup_rd inv held
    have same : slotByte s s.rd = slotByte { s with resetCount := c } s.rd :=
      (slotByte_of_lookup listed).trans (slotByte_of_lookup (s := { s with resetCount := c }) listed).symm
    have next : ({ popped s with resetCount := c } : State) = popped { s with resetCount := c } := by
      simp only [popped, respond, setRd, loadSlot, same]
      rfl
    rw [next]
    exact .popLoads admitted held slot
  | isempty admitted => exact .isempty admitted
  | clear admitted => exact .clear admitted
  | csenter foreground outside => exact .csenter foreground outside
  | csexit foreground inside => exact .csexit foreground inside
  | iret handler => exact .iret handler

theorem accepted_of_resetCount (s : State) (c : Nat) :
    accepted { s with resetCount := c } = { accepted s with resetCount := c } := by
  cases hi : s.inh <;> simp [accepted, acceptWord, passLines, hi]

/-- A step from a state with another index of free bytes goes to the same six elements, and answers the same. -/
theorem step_of_resetCount {s t : State} (inv : Inv s) (h : step s = .next t) (c : Nat) :
    ∃ t', step { s with resetCount := c } = .next t' ∧ t'.toBlock = t.toBlock ∧ t'.out = t.out := by
  have same : choose { s with resetCount := c } = choose s := rfl
  obtain ⟨hc, rfl⟩ | ⟨hc, rfl⟩ | ⟨w, i, hc, hd, effect⟩ | ⟨w, e, hc, hd, rfl⟩ | ⟨hc, rfl⟩ := step_next h
  · exact ⟨_, step_of_reset (same.trans hc), rfl, rfl⟩
  · exact ⟨_, step_of_grant (same.trans hc), rfl, rfl⟩
  · refine ⟨{ t with resetCount := c }, ?_, rfl, rfl⟩
    rw [step_of_command (same.trans hc) hd, accepted_of_resetCount]
    exact exec_of_effect (effect.of_resetCount (inv_accepted inv) c)
  · refine ⟨_, step_of_illegal (same.trans hc) hd, ?_, rfl⟩
    rw [accepted_of_resetCount]
    rfl
  · exact ⟨_, step_of_idle (same.trans hc), rfl, rfl⟩

/-- Settles O59: the two states differ in the ports shown, which no step reads, and in the index of free bytes. -/
theorem sixElementsAreTheWholeState : Obligations.SixElementsAreTheWholeState := by
  intro s s' t inv block k lines fg ih h
  have differ : s' = { s with resetCount := s'.resetCount, out := s'.out } := by
    rw [← block, ← k, ← lines, ← fg, ← ih]
  obtain ⟨t', h', block', out'⟩ := step_of_resetCount inv h s'.resetCount
  refine ⟨t', ?_, block', fun _ => out'⟩
  rw [differ, ← h']
  exact previousResponseHasNoInfluence { s with resetCount := s'.resetCount } s'.out

end Sys2Proof.Proofs
end

section
/-!
PROOF. Runs of steps: first in, first out (41_ring_buffer.md section 3), the atomicity of critical sections and handlers
(42_arbitration.md R154), and the grant of a request held over a critical section (60_exceptions.md R166).
-/

namespace Sys2Proof.Proofs

open Sys2Proof.Machine Sys2Proof.Claims

/-! ### Events of a step -/

theorem eventOf_reset {s t : State} (hc : choose s = .reset) : eventOf s t = .reset := by simp [eventOf, hc]
theorem eventOf_grant {s t : State} (hc : choose s = .grant) : eventOf s t = .grant := by simp [eventOf, hc]
theorem eventOf_idle {s t : State} (hc : choose s = .idle) : eventOf s t = .idle := by simp [eventOf, hc]
theorem eventOf_command {s t : State} {w : CommandWord} (hc : choose s = .command w) : eventOf s t = .command w t.out := by
  simp [eventOf, hc]

/-! ### First in, first out (41_ring_buffer.md R137, R138) -/

@[simp] theorem contents_accepted (s : State) : contents (accepted s) = contents s := by
  simp [contents, occupiedSlots, slotByte]

/-- The law of one step: the bytes held and the one pushed are the one popped and those held after. -/
def FifoStep (s : State) (e : Event) (t : State) : Prop :=
  contents s ++ (pushedByte e).toList = (poppedByte e).toList ++ contents t

theorem fifoStep_of_unchanged {s t : State} {e : Event} (same : contents t = contents s) (pushes : pushedByte e = none)
    (pops : poppedByte e = none) : FifoStep s e t := by
  simp [FifoStep, same, pushes, pops]

/-- A command that is not a CLEAR answered OK keeps the law. -/
theorem Effect.fifoStep {i : Instr} {s t : State} {w : CommandWord} (h : Effect i s t) (hd : decode w = .ok i)
    (cursors : CursorsInRange s) (keeps : (Event.command w t.out).empties = false) : FifoStep s (.command w t.out) t := by
  cases h with
  | pushStores _ room => simp [FifoStep, pushedByte, poppedByte, hd, contents_pushed cursors room]
  | popLoads _ held => simp [FifoStep, pushedByte, poppedByte, hd, contents_eq_cons cursors held]
  | clear => simp [Event.empties, Event.isOk, hd] at keeps
  | refused | stepDot | stepDash | stepSpace | flush | pushFull | popEmpty | isempty | csenter | csexit | iret =>
    exact fifoStep_of_unchanged rfl (by simp [pushedByte, hd]) (by simp [poppedByte, hd])

theorem fifoStep_of_step {s t : State} (inv : Inv s) (h : step s = .next t) (keeps : (eventOf s t).empties = false) :
    FifoStep s (eventOf s t) t := by
  obtain ⟨hc, rfl⟩ | ⟨hc, rfl⟩ | ⟨w, i, hc, hd, effect⟩ | ⟨w, e, hc, hd, rfl⟩ | ⟨hc, rfl⟩ := step_next h
  · rw [eventOf_reset hc] at keeps
    cases keeps
  · rw [eventOf_grant hc]
    exact fifoStep_of_unchanged rfl rfl rfl
  · rw [eventOf_command hc] at keeps ⊢
    have law := effect.fifoStep hd (cursorsInRange_accepted inv.cursors) keeps
    rwa [FifoStep, contents_accepted] at law
  · rw [eventOf_command hc]
    exact fifoStep_of_unchanged (contents_accepted s) rfl rfl
  · rw [eventOf_idle hc]
    exact fifoStep_of_unchanged rfl rfl rfl

/-- The law of a run, by induction over its steps. -/
theorem fifo_of_trace {n : Nat} {s t : State} {es : List Event} (inv : Inv s) (run : trace n s = some (t, es))
    (keeps : ∀ e ∈ es, e.empties = false) :
    contents s ++ es.filterMap pushedByte = es.filterMap poppedByte ++ contents t := by
  induction n generalizing s es with
  | zero =>
    cases run
    exact List.append_nil _
  | succ n ih =>
    obtain ⟨u, rest, first, run', rfl⟩ := trace_succ run
    obtain ⟨keepsFirst, keepsRest⟩ := List.forall_mem_cons.1 keeps
    have law : FifoStep s (eventOf s u) u := fifoStep_of_step inv first keepsFirst
    have laws := ih (everyStepKeepsInvariant s u inv first) run' keepsRest
    simp only [List.filterMap_eq_flatMap_toList, List.flatMap_cons] at laws ⊢
    rw [← List.append_assoc, law, List.append_assoc, laws, List.append_assoc]

/-- Settles O33: the law of the run, and for an empty buffer the bytes pushed are those popped and those left. -/
theorem fifoOverEveryRun : Obligations.FifoOverEveryRun := by
  intro n s t es inv run keeps
  have law := fifo_of_trace inv run keeps
  refine ⟨law, fun empty => ⟨contents t, ?_⟩⟩
  rw [← law, contents_of_empty empty inv.cursors, List.nil_append]

/-! ### Critical sections and handlers (42_arbitration.md R154) -/

/-- What every step keeps while its event is allowed, a run of allowed events keeps, and each event is of the kind shown. -/
theorem trace_keeps {P : State → Prop} {allowed shown : Event → Prop}
    (keeps : ∀ {s t}, P s → step s = .next t → allowed (eventOf s t) → P t ∧ shown (eventOf s t))
    {n : Nat} {s t : State} {es : List Event} (start : P s) (run : trace n s = some (t, es)) (all : ∀ e ∈ es, allowed e) :
    P t ∧ ∀ e ∈ es, shown e := by
  induction n generalizing s es with
  | zero =>
    cases run
    exact ⟨start, List.forall_mem_nil _⟩
  | succ n ih =>
    obtain ⟨u, rest, first, run', rfl⟩ := trace_succ run
    obtain ⟨allowedFirst, allowedRest⟩ := List.forall_mem_cons.1 all
    obtain ⟨next, shownFirst⟩ := keeps start first allowedFirst
    obtain ⟨last, shownRest⟩ := ih next run' allowedRest
    exact ⟨last, List.forall_mem_cons.2 ⟨shownFirst, shownRest⟩⟩

theorem isOk_of_decode {i : Instr} {w : CommandWord} (hd : decode w = .ok i) (d : Byte) :
    (Event.command w (okOut d)).isOk i = true := by
  simp [Event.isOk, hd]

/-- Only a word of the command itself counts as that command answering OK. -/
theorem decode_of_isOk {i : Instr} {w : CommandWord} {o : Output} (ok : (Event.command w o).isOk i = true) :
    decode w = .ok i := by
  cases o with
  | response r =>
    cases r with
    | ok d => exact of_decide_eq_true ok
    | full | empty | guard | illegal => cases ok
  | quiet | grantAck => cases ok

/-- Inside a critical section, with these words left to the handler context. -/
structure InSection (words : List CommandWord) (s : State) : Prop where
  mask : s.mask = true
  inh : s.inh = false
  ih : s.ih = words

/-- Only a CSEXIT that answers OK leaves a critical section. -/
theorem Effect.leaves_section {i : Instr} {s t : State} (h : Effect i s t) (inside : s.mask = true) (foreground : s.inh = false) :
    (i = .csexit ∧ t.out = okOut 0x00) ∨ (t.mask = true ∧ t.inh = false) := by
  cases h with
  | csexit => exact .inl ⟨rfl, rfl⟩
  | csenter _ outside => exact absurd (inside.symm.trans outside) nofun
  | iret handler => exact absurd (handler.symm.trans foreground) nofun
  | refused | stepDot | stepDash | stepSpace | flush | pushFull | pushStores | popEmpty | popLoads | isempty | clear =>
    exact .inr ⟨inside, foreground⟩

theorem inSection_of_step {words : List CommandWord} {s t : State} (inside : InSection words s) (h : step s = .next t)
    (allowed : (eventOf s t).isOk .csexit = false ∧ eventOf s t ≠ .reset) : InSection words t ∧ eventOf s t ≠ .grant := by
  obtain ⟨mask, inh, ih⟩ := inside
  have waits : (accepted s).ih = words := by rw [accepted_ih, inh]; exact ih
  obtain ⟨hc, rfl⟩ | ⟨hc, rfl⟩ | ⟨w, i, hc, hd, effect⟩ | ⟨w, e, hc, hd, rfl⟩ | ⟨hc, rfl⟩ := step_next h
  · exact absurd (eventOf_reset hc) allowed.2
  · exact absurd (mask.symm.trans (outside_of_grant hc).1) nofun
  · rw [eventOf_command hc] at allowed ⊢
    obtain ⟨rfl, ok⟩ | ⟨mask', inh'⟩ := effect.leaves_section ((accepted_mask s).trans mask) ((accepted_inh s).trans inh)
    · rw [ok, isOk_of_decode hd] at allowed
      exact absurd allowed.1 nofun
    · exact ⟨⟨mask', inh', (congrArg (·.ih) effect.inputs_unchanged).trans waits⟩, nofun⟩
  · rw [eventOf_command hc]
    exact ⟨⟨(accepted_mask s).trans mask, (accepted_inh s).trans inh, waits⟩, nofun⟩
  · rw [eventOf_idle hc]
    exact ⟨⟨mask, inh, ih⟩, nofun⟩

/-- Settles O41: each step stays inside, and none is a grant. -/
theorem criticalSectionIsAtomic : Obligations.CriticalSectionIsAtomic := by
  intro n s t es mask inh run allowed
  obtain ⟨⟨mask', inh', ih'⟩, noGrant⟩ := trace_keeps (P := InSection s.ih) (shown := (· ≠ .grant)) inSection_of_step ⟨mask, inh, rfl⟩ run allowed
  exact ⟨mask', inh', ih', noGrant⟩

/-- In a handler, with these words left to the foreground and this decoder state. -/
structure InHandler (words : List CommandWord) (node : DecoderState) (s : State) : Prop where
  inh : s.inh = true
  mask : s.mask = false
  fg : s.fg = words
  st : s.st = node

/-- Only an IRET that answers OK leaves a handler, and no command writes `mask` or `st` in one. -/
theorem Effect.leaves_handler {i : Instr} {s t : State} (h : Effect i s t) (handler : s.inh = true) :
    (i = .iret ∧ t.out = okOut 0x00) ∨ (t.inh = true ∧ t.mask = s.mask ∧ t.st = s.st) := by
  cases h with
  | iret => exact .inl ⟨rfl, rfl⟩
  | stepDot foreground | stepDash foreground | stepSpace foreground | flush foreground | csenter foreground
  | csexit foreground => exact absurd (handler.symm.trans foreground) nofun
  | refused | pushFull | pushStores | popEmpty | popLoads | isempty | clear => exact .inr ⟨handler, rfl, rfl⟩

theorem inHandler_of_step {words : List CommandWord} {node : DecoderState} {s t : State} (inside : InHandler words node s)
    (h : step s = .next t) (allowed : (eventOf s t).isOk .iret = false ∧ eventOf s t ≠ .reset) :
    InHandler words node t ∧ eventOf s t ≠ .grant := by
  obtain ⟨inh, mask, fg, st⟩ := inside
  have waits : (accepted s).fg = words := by rw [accepted_fg, inh]; exact fg
  obtain ⟨hc, rfl⟩ | ⟨hc, rfl⟩ | ⟨w, i, hc, hd, effect⟩ | ⟨w, e, hc, hd, rfl⟩ | ⟨hc, rfl⟩ := step_next h
  · exact absurd (eventOf_reset hc) allowed.2
  · exact absurd (inh.symm.trans (outside_of_grant hc).2) nofun
  · rw [eventOf_command hc] at allowed ⊢
    obtain ⟨rfl, ok⟩ | ⟨inh', mask', st'⟩ := effect.leaves_handler ((accepted_inh s).trans inh)
    · rw [ok, isOk_of_decode hd] at allowed
      exact absurd allowed.1 nofun
    · refine ⟨⟨inh', ?_, (congrArg (·.fg) effect.inputs_unchanged).trans waits, ?_⟩, nofun⟩
      · rw [mask', accepted_mask, mask]
      · rw [st', accepted_st, st]
  · rw [eventOf_command hc]
    exact ⟨⟨(accepted_inh s).trans inh, (accepted_mask s).trans mask, waits, (accepted_st s).trans st⟩, nofun⟩
  · rw [eventOf_idle hc]
    exact ⟨⟨inh, mask, fg, st⟩, nofun⟩

/-- Settles O42: each step stays in the handler, and none is a grant. -/
theorem handlerIsAtomic : Obligations.HandlerIsAtomic := by
  intro n s t es inh mask run allowed
  obtain ⟨⟨inh', mask', fg', st'⟩, noGrant⟩ := trace_keeps (P := InHandler s.fg s.st) (shown := (· ≠ .grant)) inHandler_of_step
    ⟨inh, mask, rfl, rfl⟩ run allowed
  exact ⟨inh', mask', fg', st', noGrant⟩

/-! ### A request held over a critical section (60_exceptions.md R166) -/

/-- A request that is owed, or that rises now, keeps the line high over a run without a grant. -/
theorem irq_held {n : Nat} {before owed : Bool} {s t : State} {es : List Event} (request : (currentLines s).irq = true)
    (wanted : owed = true ∨ before = false) (duty : holdsRequestFrom n before owed s = true) (run : trace n s = some (t, es))
    (noGrant : ∀ e ∈ es, e ≠ .grant) : (currentLines t).irq = true := by
  induction n generalizing s es before owed with
  | zero =>
    cases run
    exact request
  | succ n ih =>
    obtain ⟨u, rest, first, run', rfl⟩ := trace_succ run
    obtain ⟨notGrant, noGrantRest⟩ := List.forall_mem_cons.1 noGrant
    have notGranted : choose s ≠ .grant := fun hc => notGrant (eventOf_grant hc)
    have owed' : ((owed || (true && !before)) && choose s != .grant) = true := by
      obtain rfl | rfl := wanted
      · simp [notGranted]
      · simp [notGranted]
    simp only [holdsRequestFrom, first, request, owed', Bool.not_true, Bool.false_or, Bool.and_eq_true] at duty
    obtain ⟨request', duty'⟩ := duty
    exact ih request' (.inl rfl) duty' run' noGrantRest

/-- The last step of a run, taken apart. -/
theorem trace_snoc {n : Nat} {s t : State} {es : List Event} {e : Event} (run : trace (n + 1) s = some (t, es ++ [e])) :
    ∃ u, trace n s = some (u, es) ∧ step u = .next t ∧ e = eventOf u t := by
  induction n generalizing s es with
  | zero =>
    obtain ⟨u, rest, first, run', whole⟩ := trace_succ run
    cases run'
    obtain ⟨rfl, rfl⟩ : es = [] ∧ e = eventOf s t := by simpa [List.append_eq_singleton_iff] using whole
    exact ⟨s, rfl, first, rfl⟩
  | succ n ih =>
    obtain ⟨v, rest, first, run', whole⟩ := trace_succ run
    cases es with
    | nil =>
      obtain ⟨_, _, _, _, rfl⟩ := trace_succ run'
      simp at whole
    | cons e' es =>
      obtain ⟨rfl, rfl⟩ := List.cons.inj whole
      obtain ⟨u, run'', last, event⟩ := ih run'
      exact ⟨u, trace_of_step first run'', last, event⟩

/-- A CSEXIT that answered OK ends in (0, 0). -/
theorem outside_of_csexit {s t : State} (h : step s = .next t) (ok : (eventOf s t).isOk .csexit = true) :
    t.mask = false ∧ t.inh = false := by
  obtain ⟨hc, rfl⟩ | ⟨hc, rfl⟩ | ⟨w, i, hc, hd, effect⟩ | ⟨w, e, hc, hd, rfl⟩ | ⟨hc, rfl⟩ := step_next h
  · rw [eventOf_reset hc] at ok; cases ok
  · rw [eventOf_grant hc] at ok; cases ok
  · rw [eventOf_command hc] at ok
    obtain rfl : i = .csexit := Except.ok.inj (hd.symm.trans (decode_of_isOk ok))
    cases effect with
    | refused => cases ok
    | csexit foreground => exact ⟨rfl, foreground⟩
  · rw [eventOf_command hc] at ok; cases ok
  · rw [eventOf_idle hc] at ok; cases ok

/-- Settles O43: the duty keeps the request up to the state after CSEXIT, where nothing but a reset goes before the grant. -/
theorem heldRequestIsGranted : Obligations.HeldRequestIsGranted := by
  intro n s t es e mask inh request duty run allowed ok noReset
  obtain ⟨u, run', last, rfl⟩ := trace_snoc run
  obtain ⟨-, -, -, noGrant⟩ := criticalSectionIsAtomic n s u es mask inh run' allowed
  obtain ⟨mask', inh'⟩ := outside_of_csexit last ok
  have lastNotGrant : eventOf u t ≠ .grant := fun grant => by rw [grant] at ok; cases ok
  have request' : (currentLines t).irq = true := by
    refine irq_held request (.inr inh) duty run fun e' listed => ?_
    obtain before | rfl := List.mem_append.1 listed |>.imp_right List.mem_singleton.1
    · exact noGrant e' before
    · exact lastNotGrant
  exact step_of_grant (choose_of_request noReset request' mask' inh')

end Sys2Proof.Proofs
end
